-- ==== Sys2Proof/Word.lean ====
section
/-! DEFINITION. The word types of the core: 64-bit words and bytes (00_scope.md R6, R9) and the shape of the
S-box ROM (20_memory.md R41). Arithmetic on a word is BitVec's own, modulo 2^64 (R10). -/

namespace Sys2Proof

/-- A 64-bit word, unsigned, arithmetic modulo 2^64 (R9, R10). -/
abbrev Word := BitVec 64

/-- A message byte (R57). -/
abbrev Byte := BitVec 8

/-- The S-box ROM: 1024 words at 10-bit ROM addresses (R41). -/
abbrev Rom := BitVec 10 → Word

/-- Three words in the order `A`, `B`, `C`: a running state, a snapshot or a digest (R17, R20, R34). -/
structure Triple where
  a : Word
  b : Word
  c : Word
  deriving DecidableEq, Repr

end Sys2Proof
end

