-- ==== Sys2Proof/Config.lean ====
section
/-! DEFINITION. What the spec leaves open as a parameter or as an unspecified value. Each is a constant without
a body: no proof can see a value of it, so a theorem holds whatever it is. -/

namespace Sys2Proof

/-- The contents of the S-box ROM, `SBOX` of R8 laid out by ROM address (R41): no source gives an entry (U1). -/
opaque Config.sboxRom : Rom

/-- The unspecified values ("draws") of R34, R112, R113, R114: the k-th draw of a run is `freeWord k` (U5, log 5). -/
opaque Config.freeWord : Nat → Word

/-- `CORE_BASE` of R39: where the platform places the register window; used by no rule and by nothing here (U2, log 18). -/
opaque Config.coreBase : Word

end Sys2Proof
end

