-- ==== Sys2Proof/Syntax.lean ====
section
/-! DEFINITION. The instructions: one constructor per row of spec/opcode_table.json (30_encoding.md R62 to R64).
The host's transactions come first (format HOSTBUS), then the micro-op words of CORE (format UOP). A mnemonic
with two rows has two constructors, one a row (log 16). Bits the spec ignores are no operand. -/

namespace Sys2Proof

inductive Instr where
  -- writes to CTRL, by CMD (R62)
  | wrCtrlNop
  | wrCtrlStart
  | wrCtrlAbort
  | wrCtrlClrerr
  /-- `WR_CTRL_RSVD`, the row of CMD 4..7. -/
  | wrCtrlRsvdLo (cmd : BitVec 4)
  /-- `WR_CTRL_RSVD`, the row of CMD 8..15. -/
  | wrCtrlRsvdHi (cmd : BitVec 4)
  -- the other writes (R63)
  | wrMsglen (len : Word)
  | wrDin (byte : Byte)
  | wrStatus
  | wrRemain
  | wrDigestA
  | wrDigestB
  | wrDigestC
  /-- `WR_RSVD`, the row of OFF 0x40..0x78. -/
  | wrRsvdLo (off : BitVec 8)
  /-- `WR_RSVD`, the row of OFF 0x80..0xF8. -/
  | wrRsvdHi (off : BitVec 8)
  -- reads (R63)
  | rdCtrl
  | rdStatus
  | rdMsglen
  | rdDin
  | rdRemain
  | rdDigestA
  | rdDigestB
  | rdDigestC
  /-- `RD_RSVD`, the row of OFF 0x40..0x78. -/
  | rdRsvdLo (off : BitVec 8)
  /-- `RD_RSVD`, the row of OFF 0x80..0xF8. -/
  | rdRsvdHi (off : BitVec 8)
  -- micro-ops (R64)
  | waitIdle
  | waitFill
  | load
  | save
  /-- `ROUND 0, i` (R84). -/
  | roundP0 (i : BitVec 3)
  /-- `ROUND 1, i` (R84). -/
  | roundP1 (i : BitVec 3)
  /-- `ROUND 2, i` (R84). -/
  | roundP2 (i : BitVec 3)
  | roundRsvd
  | ksched
  | ffwd
  | waitDone
  deriving DecidableEq, Repr

end Sys2Proof
end

