-- ==== Sys2Proof/WellFormed.lean ====
section
/-! DEFINITION. Which instruction terms stand for an encoding of their row of the opcode table. -/

namespace Sys2Proof

/-- The check of one instruction: a reserved command's CMD and a reserved offset lie in their row's range, and
an offset is a multiple of 8 (R45, R62, R63). Every other operand may hold any value. -/
def Instr.wf : Instr → Bool
  | .wrCtrlRsvdLo cmd => 4 ≤ cmd.toNat && cmd.toNat ≤ 7
  | .wrCtrlRsvdHi cmd => 8 ≤ cmd.toNat
  | .wrRsvdLo off => off.toNat % 8 == 0 && 0x40 ≤ off.toNat && off.toNat ≤ 0x78
  | .wrRsvdHi off => off.toNat % 8 == 0 && 0x80 ≤ off.toNat
  | .rdRsvdLo off => off.toNat % 8 == 0 && 0x40 ≤ off.toNat && off.toNat ≤ 0x78
  | .rdRsvdHi off => off.toNat % 8 == 0 && 0x80 ≤ off.toNat
  | .wrCtrlNop | .wrCtrlStart | .wrCtrlAbort | .wrCtrlClrerr | .wrMsglen _ | .wrDin _ | .wrStatus | .wrRemain
  | .wrDigestA | .wrDigestB | .wrDigestC | .rdCtrl | .rdStatus | .rdMsglen | .rdDin | .rdRemain | .rdDigestA
  | .rdDigestB | .rdDigestC | .waitIdle | .waitFill | .load | .save | .roundP0 _ | .roundP1 _ | .roundP2 _
  | .roundRsvd | .ksched | .ffwd | .waitDone => true

end Sys2Proof
end

