-- ==== Sys2Proof/Decode.lean ====
section
/-! DEFINITION. The decoder of both formats (30_encoding.md), total and rejecting by name, the encoder, and the
opcode table's own rows of mask and match. -/

namespace Sys2Proof

/-- The bits of one instruction: a 73-bit bus request (format HOSTBUS, R55) or an 8-bit micro-op word (format UOP, R58). -/
inductive Code where
  | host (t : BitVec 73)
  | uop (u : BitVec 8)
  deriving DecidableEq, Repr

/-- Why bits are no instruction. -/
inductive DecodeError where
  /-- `OFF[2:0]` is not 0 (R45, R63). -/
  | misalignedOffset
  deriving DecidableEq, Repr

/-! ## Fields of a bus request (R55 to R57) -/

def reqWe (t : BitVec 73) : Bool := t.getLsbD 72
def reqOff (t : BitVec 73) : BitVec 8 := t.extractLsb' 64 8
def reqData (t : BitVec 73) : Word := t.extractLsb' 0 64
/-- `CMD = DATA[3:0]` (R56). -/
def cmdOf (data : Word) : BitVec 4 := data.extractLsb' 0 4
/-- `BYTE = DATA[7:0]` (R57). -/
def byteOfDin (data : Word) : Byte := data.extractLsb' 0 8
/-- `OFF[2:0] = 0`: the offset is admitted (R45). -/
def offAligned (off : BitVec 8) : Bool := off.extractLsb' 0 3 == 0#3

/-! ## The decoder -/

/-- A write to CTRL, by its command (R62). -/
def decodeCommand (cmd : BitVec 4) : Instr :=
  if cmd = 0#4 then .wrCtrlNop
  else if cmd = 1#4 then .wrCtrlStart
  else if cmd = 2#4 then .wrCtrlAbort
  else if cmd = 3#4 then .wrCtrlClrerr
  else if cmd.toNat < 8 then .wrCtrlRsvdLo cmd
  else .wrCtrlRsvdHi cmd

/-- A write at an admitted offset (R63, the column WE = 1). -/
def decodeWrite (off : BitVec 8) (data : Word) : Instr :=
  if off = 0x00#8 then decodeCommand (cmdOf data)
  else if off = 0x08#8 then .wrStatus
  else if off = 0x10#8 then .wrMsglen data
  else if off = 0x18#8 then .wrDin (byteOfDin data)
  else if off = 0x20#8 then .wrRemain
  else if off = 0x28#8 then .wrDigestA
  else if off = 0x30#8 then .wrDigestB
  else if off = 0x38#8 then .wrDigestC
  else if off.toNat < 0x80 then .wrRsvdLo off
  else .wrRsvdHi off

/-- A read at an admitted offset (R63, the column WE = 0). -/
def decodeRead (off : BitVec 8) : Instr :=
  if off = 0x00#8 then .rdCtrl
  else if off = 0x08#8 then .rdStatus
  else if off = 0x10#8 then .rdMsglen
  else if off = 0x18#8 then .rdDin
  else if off = 0x20#8 then .rdRemain
  else if off = 0x28#8 then .rdDigestA
  else if off = 0x30#8 then .rdDigestB
  else if off = 0x38#8 then .rdDigestC
  else if off.toNat < 0x80 then .rdRsvdLo off
  else .rdRsvdHi off

/-- A bus request is decoded by WE, then OFF, then (for CTRL writes) CMD (R101). -/
def decodeHost (t : BitVec 73) : Except DecodeError Instr :=
  if offAligned (reqOff t) then
    .ok (if reqWe t then decodeWrite (reqOff t) (reqData t) else decodeRead (reqOff t))
  else .error .misalignedOffset

/-- A micro-op word, by PHASE and, in phase ROUND, by PASS (R64). Every word is some row's. -/
def decodeUop (u : BitVec 8) : Instr :=
  let phase : BitVec 3 := u.extractLsb' 5 3
  let pass : BitVec 2 := u.extractLsb' 3 2
  let round : BitVec 3 := u.extractLsb' 0 3
  if phase = 0#3 then .waitIdle
  else if phase = 1#3 then .waitFill
  else if phase = 2#3 then .load
  else if phase = 3#3 then .save
  else if phase = 4#3 then
    if pass = 0#2 then .roundP0 round
    else if pass = 1#2 then .roundP1 round
    else if pass = 2#2 then .roundP2 round
    else .roundRsvd
  else if phase = 5#3 then .ksched
  else if phase = 6#3 then .ffwd
  else .waitDone

def decode : Code → Except DecodeError Instr
  | .host t => decodeHost t
  | .uop u => .ok (decodeUop u)

/-- The instruction of a word numbered as spec/opcode_table.json numbers it: a row of at most 8 bits is a micro-op
word, any other a bus request, whose bits 73 and up must be 0 (log 21). -/
def decodeTableWord (nbits w : Nat) : Option Instr :=
  if nbits ≤ 8 then
    if w < 2 ^ 8 then some (decodeUop (BitVec.ofNat 8 w)) else none
  else if w < 2 ^ 73 then
    match decodeHost (BitVec.ofNat 73 w) with
    | .ok i => some i
    | .error _ => none
  else none

/-! ## The encoder: ignored bits are written as 0 -/

/-- The request word `{WE, OFF, DATA}` (R55). -/
def request (we : Bool) (off : BitVec 8) (data : Word) : BitVec 73 :=
  (BitVec.ofBool we ++ off ++ data : BitVec 73)

/-- A write to CTRL of a command (R56, R62). -/
def encodeCommand (cmd : BitVec 4) : Code := .host (request true 0x00#8 (cmd.setWidth 64))

/-- The micro-op word `{PHASE, PASS, ROUND}` (R58). -/
def uopWord (phase : BitVec 3) (pass : BitVec 2) (round : BitVec 3) : BitVec 8 :=
  (phase ++ pass ++ round : BitVec 8)

def encode : Instr → Code
  | .wrCtrlNop => encodeCommand 0#4
  | .wrCtrlStart => encodeCommand 1#4
  | .wrCtrlAbort => encodeCommand 2#4
  | .wrCtrlClrerr => encodeCommand 3#4
  | .wrCtrlRsvdLo cmd => encodeCommand cmd
  | .wrCtrlRsvdHi cmd => encodeCommand cmd
  | .wrMsglen len => .host (request true 0x10#8 len)
  | .wrDin byte => .host (request true 0x18#8 (byte.setWidth 64))
  | .wrStatus => .host (request true 0x08#8 0#64)
  | .wrRemain => .host (request true 0x20#8 0#64)
  | .wrDigestA => .host (request true 0x28#8 0#64)
  | .wrDigestB => .host (request true 0x30#8 0#64)
  | .wrDigestC => .host (request true 0x38#8 0#64)
  | .wrRsvdLo off => .host (request true off 0#64)
  | .wrRsvdHi off => .host (request true off 0#64)
  | .rdCtrl => .host (request false 0x00#8 0#64)
  | .rdStatus => .host (request false 0x08#8 0#64)
  | .rdMsglen => .host (request false 0x10#8 0#64)
  | .rdDin => .host (request false 0x18#8 0#64)
  | .rdRemain => .host (request false 0x20#8 0#64)
  | .rdDigestA => .host (request false 0x28#8 0#64)
  | .rdDigestB => .host (request false 0x30#8 0#64)
  | .rdDigestC => .host (request false 0x38#8 0#64)
  | .rdRsvdLo off => .host (request false off 0#64)
  | .rdRsvdHi off => .host (request false off 0#64)
  | .waitIdle => .uop (uopWord 0#3 0#2 0#3)
  | .waitFill => .uop (uopWord 1#3 0#2 0#3)
  | .load => .uop (uopWord 2#3 0#2 0#3)
  | .save => .uop (uopWord 3#3 0#2 0#3)
  | .roundP0 i => .uop (uopWord 4#3 0#2 i)
  | .roundP1 i => .uop (uopWord 4#3 1#2 i)
  | .roundP2 i => .uop (uopWord 4#3 2#2 i)
  | .roundRsvd => .uop (uopWord 4#3 3#2 0#3)
  | .ksched => .uop (uopWord 5#3 0#2 0#3)
  | .ffwd => .uop (uopWord 6#3 0#2 0#3)
  | .waitDone => .uop (uopWord 7#3 0#2 0#3)

/-! ## The opcode table's rows, by mask and match (R55, R64) -/

/-- One row of format HOSTBUS: a request `t` is the row's when `t & mask = pattern` (R55). -/
structure HostRow where
  name : String
  mask : BitVec 73
  pattern : BitVec 73
  deriving DecidableEq, Repr

/-- One row of format UOP. -/
structure UopRow where
  name : String
  mask : BitVec 8
  pattern : BitVec 8
  deriving DecidableEq, Repr

def hostRowSelects (t : BitVec 73) (r : HostRow) : Bool := t &&& r.mask == r.pattern

def uopRowSelects (u : BitVec 8) (r : UopRow) : Bool := u &&& r.mask == r.pattern

/-- The rows of spec/opcode_table.json that write CTRL. -/
def commandRows : List HostRow := [
  ⟨"WR_CTRL_NOP", 0x1FF000000000000000F#73, 0x1000000000000000000#73⟩,
  ⟨"WR_CTRL_START", 0x1FF000000000000000F#73, 0x1000000000000000001#73⟩,
  ⟨"WR_CTRL_ABORT", 0x1FF000000000000000F#73, 0x1000000000000000002#73⟩,
  ⟨"WR_CTRL_CLRERR", 0x1FF000000000000000F#73, 0x1000000000000000003#73⟩,
  ⟨"WR_CTRL_RSVD", 0x1FF000000000000000C#73, 0x1000000000000000004#73⟩,
  ⟨"WR_CTRL_RSVD", 0x1FF0000000000000008#73, 0x1000000000000000008#73⟩]

/-- The other write rows. -/
def writeRows : List HostRow := [
  ⟨"WR_MSGLEN", 0x1FF0000000000000000#73, 0x1100000000000000000#73⟩,
  ⟨"WR_DIN", 0x1FF0000000000000000#73, 0x1180000000000000000#73⟩,
  ⟨"WR_STATUS", 0x1FF0000000000000000#73, 0x1080000000000000000#73⟩,
  ⟨"WR_REMAIN", 0x1FF0000000000000000#73, 0x1200000000000000000#73⟩,
  ⟨"WR_DIGEST_A", 0x1FF0000000000000000#73, 0x1280000000000000000#73⟩,
  ⟨"WR_DIGEST_B", 0x1FF0000000000000000#73, 0x1300000000000000000#73⟩,
  ⟨"WR_DIGEST_C", 0x1FF0000000000000000#73, 0x1380000000000000000#73⟩,
  ⟨"WR_RSVD", 0x1C70000000000000000#73, 0x1400000000000000000#73⟩,
  ⟨"WR_RSVD", 0x1870000000000000000#73, 0x1800000000000000000#73⟩]

/-- The read rows. -/
def readRows : List HostRow := [
  ⟨"RD_CTRL", 0x1FF0000000000000000#73, 0x0000000000000000000#73⟩,
  ⟨"RD_STATUS", 0x1FF0000000000000000#73, 0x0080000000000000000#73⟩,
  ⟨"RD_MSGLEN", 0x1FF0000000000000000#73, 0x0100000000000000000#73⟩,
  ⟨"RD_DIN", 0x1FF0000000000000000#73, 0x0180000000000000000#73⟩,
  ⟨"RD_REMAIN", 0x1FF0000000000000000#73, 0x0200000000000000000#73⟩,
  ⟨"RD_DIGEST_A", 0x1FF0000000000000000#73, 0x0280000000000000000#73⟩,
  ⟨"RD_DIGEST_B", 0x1FF0000000000000000#73, 0x0300000000000000000#73⟩,
  ⟨"RD_DIGEST_C", 0x1FF0000000000000000#73, 0x0380000000000000000#73⟩,
  ⟨"RD_RSVD", 0x1C70000000000000000#73, 0x0400000000000000000#73⟩,
  ⟨"RD_RSVD", 0x1870000000000000000#73, 0x0800000000000000000#73⟩]

/-- All 25 rows of format HOSTBUS. -/
def hostRows : List HostRow := commandRows ++ writeRows ++ readRows

/-- All 11 rows of format UOP. -/
def uopRows : List UopRow := [
  ⟨"WAIT_IDLE", 0xE0#8, 0x00#8⟩, ⟨"WAIT_FILL", 0xE0#8, 0x20#8⟩, ⟨"LOAD", 0xE0#8, 0x40#8⟩,
  ⟨"SAVE", 0xE0#8, 0x60#8⟩, ⟨"ROUND_P0", 0xF8#8, 0x80#8⟩, ⟨"ROUND_P1", 0xF8#8, 0x88#8⟩,
  ⟨"ROUND_P2", 0xF8#8, 0x90#8⟩, ⟨"ROUND_RSVD", 0xF8#8, 0x98#8⟩, ⟨"KSCHED", 0xE0#8, 0xA0#8⟩,
  ⟨"FFWD", 0xE0#8, 0xC0#8⟩, ⟨"WAIT_DONE", 0xE0#8, 0xE0#8⟩]

/-- The mnemonic of an instruction's row of spec/opcode_table.json. -/
def mnemonicOf : Instr → String
  | .wrCtrlNop => "WR_CTRL_NOP"
  | .wrCtrlStart => "WR_CTRL_START"
  | .wrCtrlAbort => "WR_CTRL_ABORT"
  | .wrCtrlClrerr => "WR_CTRL_CLRERR"
  | .wrCtrlRsvdLo _ => "WR_CTRL_RSVD"
  | .wrCtrlRsvdHi _ => "WR_CTRL_RSVD"
  | .wrMsglen _ => "WR_MSGLEN"
  | .wrDin _ => "WR_DIN"
  | .wrStatus => "WR_STATUS"
  | .wrRemain => "WR_REMAIN"
  | .wrDigestA => "WR_DIGEST_A"
  | .wrDigestB => "WR_DIGEST_B"
  | .wrDigestC => "WR_DIGEST_C"
  | .wrRsvdLo _ => "WR_RSVD"
  | .wrRsvdHi _ => "WR_RSVD"
  | .rdCtrl => "RD_CTRL"
  | .rdStatus => "RD_STATUS"
  | .rdMsglen => "RD_MSGLEN"
  | .rdDin => "RD_DIN"
  | .rdRemain => "RD_REMAIN"
  | .rdDigestA => "RD_DIGEST_A"
  | .rdDigestB => "RD_DIGEST_B"
  | .rdDigestC => "RD_DIGEST_C"
  | .rdRsvdLo _ => "RD_RSVD"
  | .rdRsvdHi _ => "RD_RSVD"
  | .waitIdle => "WAIT_IDLE"
  | .waitFill => "WAIT_FILL"
  | .load => "LOAD"
  | .save => "SAVE"
  | .roundP0 _ => "ROUND_P0"
  | .roundP1 _ => "ROUND_P1"
  | .roundP2 _ => "ROUND_P2"
  | .roundRsvd => "ROUND_RSVD"
  | .ksched => "KSCHED"
  | .ffwd => "FFWD"
  | .waitDone => "WAIT_DONE"

end Sys2Proof
end

