-- ==== Sys2Proof/Machine/State.lean ====
section
/-! DEFINITION. The state of one core instance (10_state.md R15), what the outside world has pending and has
received, the reasons a step stops, and the state after reset (R38). All of it is plain data. -/

namespace Sys2Proof.Machine

/-- The eight phases of the sequencer (R23); encodings in Operands.lean (R59). -/
inductive Phase where
  | idle | fill | load | save | round | ksched | ffwd | done
  deriving DecidableEq, Repr

/-- The error causes a transaction can raise (R117); code 0 is `NONE`, no error. -/
inductive ErrCode where
  | badCmd | startBusy | dinNotReady | msglenBusy | badWrite
  deriving DecidableEq, Repr

/-- The width of a host access; only 64 bits is admitted (R45). -/
inductive AccessWidth where
  | w8 | w16 | w32 | w64
  deriving DecidableEq, Repr

/-- One access the host makes: its width, and the request word `{WE, OFF, DATA}` (R55). -/
structure HostAccess where
  width : AccessWidth
  req : BitVec 73
  deriving DecidableEq, Repr

/-- What can happen next: a step of `CORE`, an access of `HOST` (R14), or a reset (R131). -/
inductive Event where
  | core
  | host (acc : HostAccess)
  | reset
  deriving DecidableEq, Repr

/-- Why the machine stops with a fault. None of them is an error of the hardware (R116, R117): those are recorded
in `ERRCODE` and the core goes on. -/
inductive Fault where
  /-- Raised by `ROUND_RSVD` (R86). Safe: the model stops, and no run from reset reaches it. -/
  | unreachableMicroOp
  /-- Raised by `WR_DIN` in phase FILL with `FILL` above 63, where the block buffer has no such byte (R119, log 11). Safe:
  the model stops, and no run from reset reaches it. -/
  | blockIndexOutOfRange
  /-- Raised by a step of either agent in a state that holds an `ERRCODE` of 6 to 15 (U12, log 10). Safe: the model
  stops, and no run from reset reaches it. -/
  | reservedErrorCode
  deriving DecidableEq, Repr

/-- Why a step has no meaning. -/
inductive Refusal where
  /-- An instruction without a meaning yet, by its mnemonic; raised only by an arm of exec. Safe: the model stops. -/
  | notModelled (mnemonic : String)
  /-- Raised by the fetch of a host access of 8, 16 or 32 bits (R45: no step). Safe: the model stops. -/
  | narrowAccess
  /-- Raised by the fetch of a host access whose `OFF[2:0]` is not 0 (R45: no step). Safe: the model stops. -/
  | misalignedAccess
  deriving DecidableEq, Repr

/-- The state. The first fifteen lines are R15's table, in its order; the last three fields are the model's own and
stand for what is outside the core (log 2, 4, 5). -/
structure State where
  /-- Running state (R17). -/
  a : Word
  b : Word
  c : Word
  /-- State snapshot (R20). -/
  aa : Word
  bb : Word
  cc : Word
  /-- Working buffer `X[0..7]` (R21). -/
  x : Vector Word 8
  /-- Block buffer `BLK[0..63]` (R25, R40). -/
  blk : Vector Byte 64
  /-- Bytes of the current block already in `BLK` (R26). -/
  fill : BitVec 7
  /-- `REM`: message bytes still to come (R26). -/
  rem : Word
  /-- `MSGLEN` (R31). -/
  msglen : Word
  phase : Phase
  /-- `PASS` (R24). -/
  pass : BitVec 2
  /-- `ROUND` (R24). -/
  round : BitVec 3
  /-- `ERRCODE` (R27, R117). -/
  errcode : BitVec 4
  /-- The interleaving still to come, next event first; when it is empty only CORE steps (log 2). -/
  events : List Event
  /-- The values reads have returned to the host, newest first (log 4). -/
  returned : List Word
  /-- How many unspecified values have been drawn (log 5). -/
  draws : Nat
  deriving DecidableEq, Repr

/-- The state after reset (R38, R131). `A` to `BLK` are unspecified there; the model names the value 0 for each
(DESIGN CHOICE, log 1). -/
def State.reset : State where
  a := 0#64
  b := 0#64
  c := 0#64
  aa := 0#64
  bb := 0#64
  cc := 0#64
  x := Vector.replicate 8 0#64
  blk := Vector.replicate 64 0#8
  fill := 0#7
  rem := 0#64
  msglen := 0#64
  phase := .idle
  pass := 0#2
  round := 0#3
  errcode := 0#4
  events := []
  returned := []
  draws := 0

end Sys2Proof.Machine
end

