-- ==== Sys2Proof/Machine/Operands.lean ====
section
/-! DEFINITION. How operands are formed (30_encoding.md R61): bytes of words, the block loader's words, the
S-box reads, role assignment, multipliers, and the encodings of phases and error codes. -/

namespace Sys2Proof.Machine

/-! ## Encodings of the control state -/

/-- `PHASE` encodings (R59). -/
def phaseCode : Phase → BitVec 3
  | .idle => 0#3
  | .fill => 1#3
  | .load => 2#3
  | .save => 3#3
  | .round => 4#3
  | .ksched => 5#3
  | .ffwd => 6#3
  | .done => 7#3

/-- The phase of a `PHASE` encoding (R59). -/
def phaseOfCode (p : BitVec 3) : Phase :=
  if p = 0#3 then .idle
  else if p = 1#3 then .fill
  else if p = 2#3 then .load
  else if p = 3#3 then .save
  else if p = 4#3 then .round
  else if p = 5#3 then .ksched
  else if p = 6#3 then .ffwd
  else .done

/-- Error codes (R117). -/
def errorCode : ErrCode → BitVec 4
  | .badCmd => 1#4
  | .startBusy => 2#4
  | .dinNotReady => 3#4
  | .msglenBusy => 4#4
  | .badWrite => 5#4

/-- The codes 6 to 15 are reserved and never produced (R65, R117). -/
def errorCodeReserved (e : BitVec 4) : Bool := 6 ≤ e.toNat

/-- The micro-op word `{PHASE, PASS, ROUND}` of a state, the core's program counter (R22, R58). -/
def uopOf (s : State) : BitVec 8 := uopWord (phaseCode s.phase) s.pass s.round

/-! ## Bytes and words -/

/-- `byte(w, p)`: position 0 is the most significant byte (R11). -/
def byteAt (w : Word) (p : Nat) : Byte := w.extractLsb' (56 - 8 * p) 8

/-- `BE64(b0, ..., b7)`: the first byte is the most significant (R11). -/
def be64 (b0 b1 b2 b3 b4 b5 b6 b7 : Byte) : Word :=
  (b0 ++ b1 ++ b2 ++ b3 ++ b4 ++ b5 ++ b6 ++ b7 : BitVec 64)

/-- `BE64(b[8g], ..., b[8g+7])` of a block (R75). -/
def groupWord (blk : Vector Byte 64) (g : Fin 8) : Word :=
  be64 (blk[8 * g.val]) (blk[8 * g.val + 1]) (blk[8 * g.val + 2]) (blk[8 * g.val + 3])
    (blk[8 * g.val + 4]) (blk[8 * g.val + 5]) (blk[8 * g.val + 6]) (blk[8 * g.val + 7])

/-- The block-loader function `loadblk`: `X[7 - g]` is group `g` (R75). -/
def loadblk (blk : Vector Byte 64) : Vector Word 8 := Vector.ofFn fun s => groupWord blk s.rev

/-- The working-buffer slot `X[i]` of a round (R61). -/
def slotOf (x : Vector Word 8) (i : BitVec 3) : Word := x[i.toNat]'i.isLt

/-! ## S-box reads -/

/-- A table of the S-box ROM, `T1` to `T4` (R35). -/
inductive SboxTable where
  | t1 | t2 | t3 | t4
  deriving DecidableEq, Repr

/-- `TSEL = t - 1` (R60). -/
def tableSelect : SboxTable → BitVec 2
  | .t1 => 0#2
  | .t2 => 1#2
  | .t3 => 2#2
  | .t4 => 3#2

/-- The ROM address `{TSEL, IDX}` (R41, R60). -/
def romAddr (t : SboxTable) (v : Byte) : BitVec 10 := (tableSelect t ++ v : BitVec 10)

/-- `SboxRead(t, v)` (R12, R41). -/
def sboxRead (rom : Rom) (t : SboxTable) (v : Byte) : Word := rom (romAddr t v)

/-! ## Pass constants and roles -/

/-- The pass that a micro-op `ROUND p, i` belongs to; `PASS = 3` is no pass (R22, R80). -/
inductive PassIx where
  | p0 | p1 | p2
  deriving DecidableEq, Repr

/-- The value of `PASS` in a pass (R24). -/
def passNat : PassIx → Nat
  | .p0 => 0
  | .p1 => 1
  | .p2 => 2

/-- The multiplier of a pass (R80). -/
def passMul : PassIx → Word
  | .p0 => 5#64
  | .p1 => 7#64
  | .p2 => 9#64

/-- Which of `A`, `B`, `C` act as `a`, `b`, `c` in a round (R81): the row of its table. -/
inductive Roles where
  /-- `k mod 3 = 0`: `A`, `B`, `C`. -/
  | abc
  /-- `k mod 3 = 1`: `B`, `C`, `A`. -/
  | bca
  /-- `k mod 3 = 2`: `C`, `A`, `B`. -/
  | cab
  deriving DecidableEq, Repr

/-- `roles(k)` for the round index `k = 8 * PASS + ROUND` within the block (R81). -/
def rolesOf (k : Nat) : Roles :=
  if k % 3 = 0 then .abc else if k % 3 = 1 then .bca else .cab

/-- The initial running state `IV` (R18). -/
def iv : Triple := ⟨0x0123456789ABCDEF#64, 0xFEDCBA9876543210#64, 0xF096A5B4C3B2E187#64⟩

/-- The padding length `P(L)`, in 0..63 (R69). -/
def padLen (len : Nat) : Nat := (64 - len % 64) % 64

end Sys2Proof.Machine
end

