-- ==== Sys2Proof/Machine/Flags.lean ====
section
/-! DEFINITION. The `STATUS` flags and the status word (10_state.md R23, R27, R30). The core has no condition codes. -/

namespace Sys2Proof.Machine

/-- `busy`: a hash is in progress (R23). -/
def busy (s : State) : Bool := s.phase != .idle && s.phase != .done

/-- `STATUS.DONE` (R27). -/
def doneFlag (s : State) : Bool := s.phase == .done

/-- `STATUS.NEED_DATA` (R27). -/
def needData (s : State) : Bool := s.phase == .fill

/-- `STATUS.ERR` (R27). -/
def errFlag (s : State) : Bool := s.errcode != 0#4

/-- The status word a read composes (R30, R109). -/
def statusWord (s : State) : Word :=
  ((s.fill ++ s.round ++ s.pass ++ phaseCode s.phase ++ s.errcode ++ BitVec.ofBool (errFlag s)
    ++ BitVec.ofBool (needData s) ++ BitVec.ofBool (doneFlag s) ++ BitVec.ofBool (busy s) : BitVec 23)).setWidth 64

/-- `CORE` has a step: the phase is one of LOAD, SAVE, ROUND, KSCHED, FFWD (R94). -/
def coreEnabled (s : State) : Bool :=
  s.phase == .load || s.phase == .save || s.phase == .round || s.phase == .ksched || s.phase == .ffwd

end Sys2Proof.Machine
end

