-- ==== Sys2Proof/Machine/Ops.lean ====
section
/-! DEFINITION. The named operations over the state: writing registers, recording and clearing an error, answering
a read, and reset. Every meaning is built from these. -/

namespace Sys2Proof.Machine

/-- What a meaning answers. -/
abbrev Result := Host.Outcome State Fault Refusal

/-! ## Register writes (R12: `R <- v`) -/

/-- The running state as one value (R17). -/
def runningOf (s : State) : Triple := ⟨s.a, s.b, s.c⟩

/-- The snapshot as one value (R20). -/
def snapshotOf (s : State) : Triple := ⟨s.aa, s.bb, s.cc⟩

/-- `A <- t.a; B <- t.b; C <- t.c`. -/
def State.withRunning (s : State) (t : Triple) : State := { s with a := t.a, b := t.b, c := t.c }

/-- `AA <- t.a; BB <- t.b; CC <- t.c`. -/
def State.withSnapshot (s : State) (t : Triple) : State := { s with aa := t.a, bb := t.b, cc := t.c }

/-- `X[0..7] <- x`. -/
def State.withX (s : State) (x : Vector Word 8) : State := { s with x := x }

/-- `BLK[0..63] <- blk`. -/
def State.withBlk (s : State) (blk : Vector Byte 64) : State := { s with blk := blk }

/-- `FILL <- fill; REM <- rem`. -/
def State.withCounts (s : State) (fill : BitVec 7) (rem : Word) : State := { s with fill := fill, rem := rem }

/-- `MSGLEN <- len`. -/
def State.withMsglen (s : State) (len : Word) : State := { s with msglen := len }

/-- `PHASE <- p`. -/
def State.withPhase (s : State) (p : Phase) : State := { s with phase := p }

/-- `PASS <- p`. -/
def State.withPass (s : State) (p : BitVec 2) : State := { s with pass := p }

/-- `ROUND <- i`. -/
def State.withRound (s : State) (i : BitVec 3) : State := { s with round := i }

/-- `ERRCODE <- e`. -/
def State.withErrcode (s : State) (e : BitVec 4) : State := { s with errcode := e }

/-- The outside world's pending events (log 2). -/
def State.withEvents (s : State) (es : List Event) : State := { s with events := es }

/-! ## The block buffer (R40) -/

/-- One byte of `BLK`. -/
def readBlk (s : State) (j : Fin 64) : Byte := s.blk[j.val]

/-- `BLK[j] <- b` (R73). -/
def storeBlk (s : State) (j : Fin 64) (b : Byte) : State := s.withBlk (s.blk.set j.val b)

/-- `for j in 0..P-1: BLK[j] <- 0x00`, the padder's zero prefix (R103). -/
def zeroPrefix (p : Nat) (blk : Vector Byte 64) : Vector Byte 64 :=
  Vector.ofFn fun j => if j.val < p then 0#8 else blk[j.val]

/-! ## Errors: taking one and returning from it -/

/-- `raise Error(code)`: the first error since the last clear is kept; nothing else changes and control is not
transferred (R118, R122). -/
def raiseError (c : ErrCode) (s : State) : State :=
  if s.errcode = 0#4 then s.withErrcode (errorCode c) else s

/-- `ERRCODE <- 0`, the host's only way to clear the record short of reset (R105, R123). -/
def clearError (s : State) : State := s.withErrcode 0#4

/-! ## Answering a read -/

/-- A read returns one 64-bit value to the host and changes no register (R47, R55). -/
def returnToHost (v : Word) (s : State) : State := { s with returned := v :: s.returned }

/-- A read whose value is unspecified returns a draw: any value, under no law (R34, U5). -/
def returnDraw (s : State) : State :=
  { s with returned := Config.freeWord s.draws :: s.returned, draws := s.draws + 1 }

/-- A digest word is returned in phase DONE, and a draw in every other phase (R34, R112 to R114). -/
def returnDigestWord (v : Word) (s : State) : State :=
  if s.phase = .done then returnToHost v s else returnDraw s

/-! ## Reset -/

/-- A reset of the core at any time between steps: every register of R15 takes its value of R38; what is outside the
core, the pending events and what the host has received, stays (R131, log 14). -/
def resetCore (s : State) : State :=
  { State.reset with events := s.events, returned := s.returned, draws := s.draws }

end Sys2Proof.Machine
end

