-- ==== Sys2Proof/Machine/Command.lean ====
section
/-! DEFINITION. The commands: writes to `CTRL` (45_host_interface.md section 2). -/

namespace Sys2Proof.Machine

/-- `WR_CTRL_NOP`: nothing, in every phase (R102). -/
def execWrCtrlNop (s : State) : Result := .next s

/-- The registers `START` writes when it is accepted (R103): the running state takes `IV`, `REM` latches `MSGLEN`; an empty
message has zero blocks and is done at once (R70), any other gets its zero prefix in `BLK` (R69). -/
def startHash (s : State) : State :=
  let p := padLen s.msglen.toNat
  let t := (s.withRunning iv).withPass 0#2 |>.withRound 0#3
  if s.msglen = 0#64 then (t.withCounts 0#7 s.msglen).withPhase .done
  else ((t.withBlk (zeroPrefix p s.blk)).withCounts (BitVec.ofNat 7 p) s.msglen).withPhase .fill

/-- `WR_CTRL_START`: begin a hash of `MSGLEN` bytes; `START_BUSY` while one is in progress (R103). -/
def execWrCtrlStart (s : State) : Result :=
  if busy s then .next (raiseError .startBusy s) else .next (startHash s)

/-- `WR_CTRL_ABORT`: abandon the hash in progress, in every phase (R104). -/
def execWrCtrlAbort (s : State) : Result :=
  .next ((s.withCounts 0#7 0#64).withPhase .idle |>.withPass 0#2 |>.withRound 0#3)

/-- `WR_CTRL_CLRERR`: clear the recorded error, in every phase (R105). -/
def execWrCtrlClrerr (s : State) : Result := .next (clearError s)

/-- `WR_CTRL_RSVD`, CMD 4..7: raise `BAD_CMD` (R106). -/
def execWrCtrlRsvdLo (s : State) : Result := .next (raiseError .badCmd s)

/-- `WR_CTRL_RSVD`, CMD 8..15: raise `BAD_CMD` (R106). -/
def execWrCtrlRsvdHi (s : State) : Result := .next (raiseError .badCmd s)

end Sys2Proof.Machine
end

