-- ==== Sys2Proof/Machine/Feedforward.lean ====
section
/-! DEFINITION. The feedforward combiner and the waiting rows (43_feedforward_sequencer.md). -/

namespace Sys2Proof.Machine

/-- `ffwd` of the post-pass state and the snapshot (R92). -/
def ffwdOn (t snap : Triple) : Triple := ⟨t.a ^^^ snap.a, t.b - snap.b, t.c + snap.c⟩

/-- `FFWD`: feedforward and block completion (R93). -/
def execFfwd (s : State) : Result :=
  .next ((s.withRunning (ffwdOn (runningOf s) (snapshotOf s))).withPass 0#2 |>.withRound 0#3
    |>.withCounts 0#7 s.rem |>.withPhase (if s.rem = 0#64 then .done else .fill))

/-- `WAIT_IDLE`: CORE has no step; no state changes (R94, log 7). -/
def execWaitIdle (s : State) : Result := .next s

/-- `WAIT_FILL`: CORE has no step; no state changes (R94, log 7). -/
def execWaitFill (s : State) : Result := .next s

/-- `WAIT_DONE`: CORE has no step; no state changes (R94, log 7). -/
def execWaitDone (s : State) : Result := .next s

end Sys2Proof.Machine
end

