-- ==== Sys2Proof/Machine/HostRead.lean ====
section
/-! DEFINITION. The reads (45_host_interface.md section 4). No read changes a register of the core or raises an error
(R47). -/

namespace Sys2Proof.Machine

/-- `RD_CTRL`: a write-only register reads 0 (R115). -/
def execRdCtrl (s : State) : Result := .next (returnToHost 0#64 s)

/-- `RD_STATUS` (R109). -/
def execRdStatus (s : State) : Result := .next (returnToHost (statusWord s) s)

/-- `RD_MSGLEN` (R110). -/
def execRdMsglen (s : State) : Result := .next (returnToHost s.msglen s)

/-- `RD_DIN`: a write-only register reads 0 (R115). -/
def execRdDin (s : State) : Result := .next (returnToHost 0#64 s)

/-- `RD_REMAIN` (R111). -/
def execRdRemain (s : State) : Result := .next (returnToHost s.rem s)

/-- `RD_DIGEST_A` (R112). -/
def execRdDigestA (s : State) : Result := .next (returnDigestWord s.a s)

/-- `RD_DIGEST_B` (R113). -/
def execRdDigestB (s : State) : Result := .next (returnDigestWord s.b s)

/-- `RD_DIGEST_C` (R114). -/
def execRdDigestC (s : State) : Result := .next (returnDigestWord s.c s)

/-- `RD_RSVD`, offsets 0x40..0x78: reads 0 (R115). -/
def execRdRsvdLo (s : State) : Result := .next (returnToHost 0#64 s)

/-- `RD_RSVD`, offsets 0x80..0xF8: reads 0 (R115). -/
def execRdRsvdHi (s : State) : Result := .next (returnToHost 0#64 s)

end Sys2Proof.Machine
end

