-- ==== Sys2Proof/Machine/HostWrite.lean ====
section
/-! DEFINITION. The writes other than to `CTRL` and `DIN` (45_host_interface.md section 3). -/

namespace Sys2Proof.Machine

/-- `WR_MSGLEN`: set the message length; `MSGLEN_BUSY` while a hash is in progress (R107). -/
def execWrMsglen (len : Word) (s : State) : Result :=
  if busy s then .next (raiseError .msglenBusy s) else .next (s.withMsglen len)

/-- `WR_STATUS`: the register is read-only (R108). -/
def execWrStatus (s : State) : Result := .next (raiseError .badWrite s)

/-- `WR_REMAIN`: the register is read-only (R108). -/
def execWrRemain (s : State) : Result := .next (raiseError .badWrite s)

/-- `WR_DIGEST_A`: the digest cannot be overwritten (R108). -/
def execWrDigestA (s : State) : Result := .next (raiseError .badWrite s)

/-- `WR_DIGEST_B`: the digest cannot be overwritten (R108). -/
def execWrDigestB (s : State) : Result := .next (raiseError .badWrite s)

/-- `WR_DIGEST_C`: the digest cannot be overwritten (R108). -/
def execWrDigestC (s : State) : Result := .next (raiseError .badWrite s)

/-- `WR_RSVD`, offsets 0x40..0x78 (R108). -/
def execWrRsvdLo (s : State) : Result := .next (raiseError .badWrite s)

/-- `WR_RSVD`, offsets 0x80..0xF8 (R108). -/
def execWrRsvdHi (s : State) : Result := .next (raiseError .badWrite s)

end Sys2Proof.Machine
end

