-- ==== Sys2Proof/Machine/KeySchedule.lean ====
section
/-! DEFINITION. The key scheduler (42_key_schedule.md). -/

namespace Sys2Proof.Machine

/-- `(~v) << 19`, logical (R91). -/
def shiftLeftNot (v : Word) : Word := (~~~v) <<< 19

/-- `(~v) >> 23`, logical (R91). -/
def shiftRightNot (v : Word) : Word := (~~~v) >>> 23

/-- `KS`, the sixteen updates of R88 in their order, each reading what the lines before it wrote. -/
def ks (x : Vector Word 8) : Vector Word 8 :=
  let x0 := x[0] - (x[7] ^^^ 0xA5A5A5A5A5A5A5A5#64)
  let x1 := x[1] ^^^ x0
  let x2 := x[2] + x1
  let x3 := x[3] - (x2 ^^^ shiftLeftNot x1)
  let x4 := x[4] ^^^ x3
  let x5 := x[5] + x4
  let x6 := x[6] - (x5 ^^^ shiftRightNot x4)
  let x7 := x[7] ^^^ x6
  let y0 := x0 + x7
  let y1 := x1 - (y0 ^^^ shiftLeftNot x7)
  let y2 := x2 ^^^ y1
  let y3 := x3 + y2
  let y4 := x4 - (y3 ^^^ shiftRightNot y2)
  let y5 := x5 ^^^ y4
  let y6 := x6 + y5
  let y7 := x7 - (y6 ^^^ 0x0123456789ABCDEF#64)
  #v[y0, y1, y2, y3, y4, y5, y6, y7]

/-- `KSCHED`: key-schedule the working buffer and begin the next pass (R90). -/
def execKsched (s : State) : Result :=
  .next ((s.withX (ks s.x)).withPass (s.pass + 1#2) |>.withPhase .round)

end Sys2Proof.Machine
end

