-- ==== Sys2Proof/Machine/Padder.lean ====
section
/-! DEFINITION. The front of the pipeline: chunker, block loader and state snapshot (40_padder_loader.md). -/

namespace Sys2Proof.Machine

/-- The registers an accepted byte changes, at block-buffer index `j = FILL` (R73). The test is on the incremented
`FILL`: a full block is handed to CORE. -/
def acceptByte (j : Fin 64) (byte : Byte) (s : State) : State :=
  let t := (storeBlk s j byte).withCounts (s.fill + 1#7) (s.rem - 1#64)
  if s.fill + 1#7 = 64#7 then t.withPhase .load else t

/-- `WR_DIN`: deliver one message byte; dropped with `DIN_NOT_READY` outside phase FILL (R73). In phase FILL with `FILL` above 63,
which no run reaches (R26), there is no byte `BLK[FILL]` and the model faults (R119, log 11). -/
def execWrDin (byte : Byte) (s : State) : Result :=
  if s.phase = .fill then
    if h : s.fill.toNat < 64 then .next (acceptByte ⟨s.fill.toNat, h⟩ byte s)
    else .fault .blockIndexOutOfRange
  else .next (raiseError .dinNotReady s)

/-- `LOAD`: the block becomes the working buffer (R75, R76). -/
def execLoad (s : State) : Result := .next ((s.withX (loadblk s.blk)).withPhase .save)

/-- `SAVE`: snapshot of the running state; the first pass begins (R77). -/
def execSave (s : State) : Result :=
  .next ((s.withSnapshot (runningOf s)).withPass 0#2 |>.withRound 0#3 |>.withPhase .round)

end Sys2Proof.Machine
end

