-- ==== Sys2Proof/Machine/PassEngine.lean ====
section
/-! DEFINITION. The pass engine: the S-box lookup multiplexer, the round function and the round micro-ops
(41_pass_engine.md). The pure functions take the S-box ROM as an argument (R8); the micro-ops run on `Config.sboxRom`. -/

namespace Sys2Proof.Machine

/-- `TA` of the S-box lookup multiplexer: tables 1, 2, 3, 4 at byte positions 0, 2, 4, 6 (R78). -/
def sboxTa (rom : Rom) (w : Word) : Word :=
  sboxRead rom .t1 (byteAt w 0) ^^^ sboxRead rom .t2 (byteAt w 2) ^^^ sboxRead rom .t3 (byteAt w 4)
    ^^^ sboxRead rom .t4 (byteAt w 6)

/-- `TB` of the S-box lookup multiplexer: tables 4, 3, 2, 1 at byte positions 1, 3, 5, 7 (R78). -/
def sboxTb (rom : Rom) (w : Word) : Word :=
  sboxRead rom .t4 (byteAt w 1) ^^^ sboxRead rom .t3 (byteAt w 3) ^^^ sboxRead rom .t2 (byteAt w 5)
    ^^^ sboxRead rom .t1 (byteAt w 7)

/-- The round function on the `a`-, `b`- and `c`-role words, with input `x` and multiplier `m` (R83): the S-box indices come
from the updated `c`-role word; on the `b`-role word, subtract, then multiply. -/
def roundFn (rom : Rom) (r : Triple) (x m : Word) : Triple :=
  let c' := r.c ^^^ x
  ⟨r.a - sboxTa rom c', (r.b - sboxTb rom c') * m, c'⟩

/-- The role words of a running state, in the order `a`, `b`, `c` (R81). -/
def toRoles (r : Roles) (t : Triple) : Triple :=
  match r with
  | .abc => ⟨t.a, t.b, t.c⟩
  | .bca => ⟨t.b, t.c, t.a⟩
  | .cab => ⟨t.c, t.a, t.b⟩

/-- The running state whose role words these are (R81, R84: `ra <- a'; rb <- b'; rc <- c'`). -/
def fromRoles (r : Roles) (t : Triple) : Triple :=
  match r with
  | .abc => ⟨t.a, t.b, t.c⟩
  | .bca => ⟨t.c, t.a, t.b⟩
  | .cab => ⟨t.b, t.c, t.a⟩

/-- `ROUND p, i` on a running state, reading the working buffer `x` (R84). -/
def roundOn (rom : Rom) (p : PassIx) (i : BitVec 3) (x : Vector Word 8) (t : Triple) : Triple :=
  let r := rolesOf (8 * passNat p + i.toNat)
  fromRoles r (roundFn rom (toRoles r t) (slotOf x i) (passMul p))

/-- The phase after the last round of a pass (R84, R85). -/
def phaseAfterPass : PassIx → Phase
  | .p0 => .ksched
  | .p1 => .ksched
  | .p2 => .ffwd

/-- How `ROUND p, i` advances the sequencer (R84). -/
def advanceRound (p : PassIx) (i : BitVec 3) (s : State) : State :=
  if i.toNat < 7 then s.withRound (i + 1#3) else (s.withRound 0#3).withPhase (phaseAfterPass p)

/-- One round of the pass engine (R84). -/
def runRound (p : PassIx) (i : BitVec 3) (s : State) : State :=
  advanceRound p i (s.withRunning (roundOn Config.sboxRom p i s.x (runningOf s)))

/-- `ROUND_P0`: a round of pass 0, multiplier 5 (R80, R84). -/
def execRoundP0 (i : BitVec 3) (s : State) : Result := .next (runRound .p0 i s)

/-- `ROUND_P1`: a round of pass 1, multiplier 7 (R80, R84). -/
def execRoundP1 (i : BitVec 3) (s : State) : Result := .next (runRound .p1 i s)

/-- `ROUND_P2`: a round of pass 2, multiplier 9 (R80, R84). -/
def execRoundP2 (i : BitVec 3) (s : State) : Result := .next (runRound .p2 i s)

/-- `ROUND_RSVD`: `fault("unreachable micro-op")`; no state is written (R86). -/
def execRoundRsvd (_ : State) : Result := .fault .unreachableMicroOp

end Sys2Proof.Machine
end

