-- ==== Sys2Proof/Machine/Dispatch.lean ====
section
/-! DEFINITION. The meaning of every instruction: one arm per constructor of Instr. -/

namespace Sys2Proof.Machine

def exec (i : Instr) (s : State) : Host.Outcome State Fault Refusal :=
  match i with
  | .wrCtrlNop => Sys2Proof.Machine.execWrCtrlNop s
  | .wrCtrlStart => Sys2Proof.Machine.execWrCtrlStart s
  | .wrCtrlAbort => Sys2Proof.Machine.execWrCtrlAbort s
  | .wrCtrlClrerr => Sys2Proof.Machine.execWrCtrlClrerr s
  | .wrCtrlRsvdLo _ => Sys2Proof.Machine.execWrCtrlRsvdLo s
  | .wrCtrlRsvdHi _ => Sys2Proof.Machine.execWrCtrlRsvdHi s
  | .wrMsglen len => Sys2Proof.Machine.execWrMsglen len s
  | .wrDin byte => Sys2Proof.Machine.execWrDin byte s
  | .wrStatus => Sys2Proof.Machine.execWrStatus s
  | .wrRemain => Sys2Proof.Machine.execWrRemain s
  | .wrDigestA => Sys2Proof.Machine.execWrDigestA s
  | .wrDigestB => Sys2Proof.Machine.execWrDigestB s
  | .wrDigestC => Sys2Proof.Machine.execWrDigestC s
  | .wrRsvdLo _ => Sys2Proof.Machine.execWrRsvdLo s
  | .wrRsvdHi _ => Sys2Proof.Machine.execWrRsvdHi s
  | .rdCtrl => Sys2Proof.Machine.execRdCtrl s
  | .rdStatus => Sys2Proof.Machine.execRdStatus s
  | .rdMsglen => Sys2Proof.Machine.execRdMsglen s
  | .rdDin => Sys2Proof.Machine.execRdDin s
  | .rdRemain => Sys2Proof.Machine.execRdRemain s
  | .rdDigestA => Sys2Proof.Machine.execRdDigestA s
  | .rdDigestB => Sys2Proof.Machine.execRdDigestB s
  | .rdDigestC => Sys2Proof.Machine.execRdDigestC s
  | .rdRsvdLo _ => Sys2Proof.Machine.execRdRsvdLo s
  | .rdRsvdHi _ => Sys2Proof.Machine.execRdRsvdHi s
  | .waitIdle => Sys2Proof.Machine.execWaitIdle s
  | .waitFill => Sys2Proof.Machine.execWaitFill s
  | .load => Sys2Proof.Machine.execLoad s
  | .save => Sys2Proof.Machine.execSave s
  | .roundP0 k => Sys2Proof.Machine.execRoundP0 k s
  | .roundP1 k => Sys2Proof.Machine.execRoundP1 k s
  | .roundP2 k => Sys2Proof.Machine.execRoundP2 k s
  | .roundRsvd => Sys2Proof.Machine.execRoundRsvd s
  | .ksched => Sys2Proof.Machine.execKsched s
  | .ffwd => Sys2Proof.Machine.execFfwd s
  | .waitDone => Sys2Proof.Machine.execWaitDone s

end Sys2Proof.Machine
end

