-- ==== Sys2Proof/Machine/Fetch.lean ====
section
/-! DEFINITION. What runs next: the next event of the interleaving, and the instruction it carries (20_memory.md R45, R46,
R50; 43_feedforward_sequencer.md R94; 70_reset_and_hazards.md R131). -/

namespace Sys2Proof.Machine

/-- What the next event comes to. -/
inductive Fetched where
  /-- The instruction to run, and the state it runs in (the event taken off). -/
  | run (i : Instr) (s : State)
  /-- The event is done: a reset. -/
  | settled (s : State)
  | faulted (f : Fault)
  | refused (r : Refusal)
  deriving DecidableEq, Repr

/-- CORE's micro-op is the one at `uop` (R22, R94). -/
def fetchCore (s : State) : Fetched := .run (decodeUop (uopOf s)) s

/-- A host access: only a 64-bit access at an aligned offset is admitted (R45), and it is the transaction its request
word selects (R55, R101). -/
def fetchHost (acc : HostAccess) (s : State) : Fetched :=
  if acc.width = .w64 then
    match decodeHost acc.req with
    | .ok i => .run i s
    | .error .misalignedOffset => .refused .misalignedAccess
  else .refused .narrowAccess

/-- A state that holds a reserved error code has no step of either agent (U12, log 10). -/
def guardErrorCode (s : State) (f : Fetched) : Fetched :=
  if errorCodeReserved s.errcode then .faulted .reservedErrorCode else f

/-- The next event. With none pending, CORE steps (log 2, log 17). -/
def fetch (s : State) : Fetched :=
  match s.events with
  | [] => guardErrorCode s (fetchCore s)
  | .core :: es => guardErrorCode s (fetchCore (s.withEvents es))
  | .host acc :: es => guardErrorCode s (fetchHost acc (s.withEvents es))
  | .reset :: es => .settled (resetCore (s.withEvents es))

/-- `PHASE`, `PASS` and `ROUND` set so that the micro-op at `uop` is the given word (R58). -/
def placeUop (s : State) (u : BitVec 8) : State :=
  (s.withPhase (phaseOfCode (u.extractLsb' 5 3))).withPass (u.extractLsb' 3 2) |>.withRound (u.extractLsb' 0 3)

/-- The state in which the next step runs exactly the instruction of a table word: a micro-op word is placed in the
sequencer registers and CORE steps next; a bus request is the host's next access (log 3). -/
def placeTableWord (s : State) (nbits w : Nat) : State :=
  if nbits ≤ 8 then (placeUop s (BitVec.ofNat 8 w)).withEvents (.core :: s.events)
  else s.withEvents (.host ⟨.w64, BitVec.ofNat 73 w⟩ :: s.events)

end Sys2Proof.Machine
end

