-- ==== Sys2Proof/Machine/HostProgram.lean ====
section
/-! DEFINITION. The assembler notation of the host's programs (30_encoding.md R67, R68): lines of one transaction each, and the
pseudo-instructions, as lists of events. A POLL loop is host control flow, which is outside the core: it stands here as the
events of one pass through it, the CORE steps that fall before its read and the read. -/

namespace Sys2Proof.Machine

/-- The register names of R67. -/
inductive HostReg where
  | ctrl | status | msglen | din | remain | digestA | digestB | digestC
  | rsvd (off : BitVec 8)
  deriving DecidableEq, Repr

/-- The byte offset of a register (R28); `RSVD+<off>` is the offset itself. -/
def regOffset : HostReg → BitVec 8
  | .ctrl => 0x00#8
  | .status => 0x08#8
  | .msglen => 0x10#8
  | .din => 0x18#8
  | .remain => 0x20#8
  | .digestA => 0x28#8
  | .digestB => 0x30#8
  | .digestC => 0x38#8
  | .rsvd off => off

/-- `WR <reg>, <value>` (R67). -/
def wr (r : HostReg) (v : Word) : Event := .host ⟨.w64, request true (regOffset r) v⟩

/-- `RD <reg>` (R67). -/
def rd (r : HostReg) : Event := .host ⟨.w64, request false (regOffset r) 0#64⟩

/-- `NOP` = `WR CTRL, 0` (R68). -/
def cmdNop : Event := wr .ctrl 0#64

/-- `START` = `WR CTRL, 1` (R68). -/
def cmdStart : Event := wr .ctrl 1#64

/-- `ABORT` = `WR CTRL, 2` (R68). -/
def cmdAbort : Event := wr .ctrl 2#64

/-- `CLRERR` = `WR CTRL, 3` (R68). -/
def cmdClrerr : Event := wr .ctrl 3#64

/-- `SEND b0, b1, ..., bn` (R68). -/
def sendBytes (bs : List Byte) : List Event := bs.map fun b => wr .din (b.setWidth 64)

/-- One pass of `POLL STATUS` after `n` CORE steps: `WAITDONE` or `WAITDATA` (R68). -/
def pollStatus (n : Nat) : List Event := List.replicate n Event.core ++ [rd .status]

/-- The bytes of `HASH m` from byte `j` on: `WAITDATA` before the first byte of every block after the first (R68). The
block before it takes 29 CORE steps (R94). -/
def hashBytes (p j : Nat) : List Byte → List Event
  | [] => []
  | b :: bs =>
    (if 0 < j ∧ (p + j) % 64 = 0 then pollStatus 29 else []) ++ wr .din (b.setWidth 64) :: hashBytes p (j + 1) bs

/-- `HASH m` (R68), under the schedule in which CORE steps only during the poll loops. -/
def hashEvents (m : List Byte) : List Event :=
  [wr .msglen (BitVec.ofNat 64 m.length), cmdStart] ++ hashBytes (padLen m.length) 0 m
    ++ pollStatus (if m = [] then 0 else 29) ++ [rd .digestA, rd .digestB, rd .digestC]

end Sys2Proof.Machine
end

