-- ==== Sys2Proof/Machine/Hash.lean ====
section
/-! DEFINITION. What the micro-op sequence computes, as functions of the message: padding (R69), one block's compression
(R97), the hash (R98), and the host's digest text (R100). They take the S-box ROM as an argument (R8). -/

namespace Sys2Proof.Machine

/-! ## The padded message (R69 to R72) -/

/-- `pad(m) = zeros(P(|m|)) ++ m` (R69). -/
def padMsg (m : List Byte) : List Byte := List.replicate (padLen m.length) 0#8 ++ m

/-- `N(L)`, the number of blocks of a message of `L` bytes (R69). -/
def numBlocks (len : Nat) : Nat := (len + padLen len) / 64

/-- Block `k` of a byte string: its bytes `64k .. 64k+63` (R69). -/
def blockAt (bytes : List Byte) (k : Nat) : Vector Byte 64 :=
  Vector.ofFn fun j => bytes.getD (64 * k + j.val) 0#8

/-! ## One block (R85, R97) -/

/-- The first `n` rounds of pass `p`, in order, on a running state (R85). -/
def roundsOn (rom : Rom) (p : PassIx) (x : Vector Word 8) (n : Nat) (t : Triple) : Triple :=
  (List.range n).foldl (fun u i => roundOn rom p (BitVec.ofNat 3 i) x u) t

/-- `pass_p(s, X)`: the eight rounds of a pass, with `X` unchanged during the pass (R85). -/
def passOn (rom : Rom) (p : PassIx) (x : Vector Word 8) (t : Triple) : Triple := roundsOn rom p x 8 t

/-- The working buffer of a block during a pass: key-scheduled before the second and the third (R85, R97). -/
def passInput (blk : Vector Byte 64) : PassIx → Vector Word 8
  | .p0 => loadblk blk
  | .p1 => ks (loadblk blk)
  | .p2 => ks (ks (loadblk blk))

/-- The running state at the start of a pass of a block (R97). -/
def passEntry (rom : Rom) (t : Triple) (blk : Vector Byte 64) : PassIx → Triple
  | .p0 => t
  | .p1 => passOn rom .p0 (passInput blk .p0) t
  | .p2 => passOn rom .p1 (passInput blk .p1) (passOn rom .p0 (passInput blk .p0) t)

/-- The compression function of one block (R97). -/
def compress (rom : Rom) (t : Triple) (blk : Vector Byte 64) : Triple :=
  let x0 := loadblk blk
  let s1 := passOn rom .p0 x0 t
  let x1 := ks x0
  let s2 := passOn rom .p1 x1 s1
  let x2 := ks x1
  let s3 := passOn rom .p2 x2 s2
  ffwdOn s3 t

/-! ## The hash (R98) -/

/-- The running state after the first `n` blocks of a byte string, from `IV` (R95, R98). -/
def chain (rom : Rom) (bytes : List Byte) (n : Nat) : Triple :=
  (List.range n).foldl (fun t k => compress rom t (blockAt bytes k)) iv

/-- `tiger(m)`: the blocks of `pad(m)` folded by `compress` from `IV` (R98). -/
def tiger (rom : Rom) (m : List Byte) : Triple := chain rom (padMsg m) (numBlocks m.length)

/-! ## The digest text, a function of the host (R100) -/

/-- One lowercase hexadecimal digit. -/
def hexDigit (d : BitVec 4) : Char :=
  if d.toNat < 10 then Char.ofNat (48 + d.toNat) else Char.ofNat (87 + d.toNat)

/-- `hex16(w)`: 16 digits, most significant first, left-padded with 0 (R100). -/
def hex16 (w : Word) : List Char :=
  (List.range 16).map fun k => hexDigit (w.extractLsb' (60 - 4 * k) 4)

/-- The 48-character text form of a digest (R100). -/
def digestText (t : Triple) : List Char := hex16 t.a ++ hex16 t.b ++ hex16 t.c

end Sys2Proof.Machine
end

