-- ==== Sys2Proof/Safety.lean ====
section
/-! DEFINITION. What counts as a good state and a safe run. -/

namespace Sys2Proof.Machine

/-- The invariants of `FILL` and `REM` (R26), with the congruence that makes the last message byte fill a block (R71, R73). -/
abbrev CountersOk (s : State) : Prop :=
  match s.phase with
  | .idle | .done => s.fill = 0#7 ∧ s.rem = 0#64
  | .fill => s.fill.toNat ≤ 63 ∧ 64 ≤ s.rem.toNat + s.fill.toNat ∧ (s.rem.toNat + s.fill.toNat) % 64 = 0
  | .load | .save | .round | .ksched | .ffwd => s.fill = 64#7 ∧ s.rem.toNat % 64 = 0

/-- The values of `PASS` and `ROUND` in each phase (R22, R24). -/
abbrev SequencerOk (s : State) : Prop :=
  match s.phase with
  | .round => s.pass.toNat ≤ 2
  | .ksched => s.pass.toNat ≤ 1 ∧ s.round = 0#3
  | .ffwd => s.pass = 2#2 ∧ s.round = 0#3
  | .idle | .fill | .load | .save | .done => s.pass = 0#2 ∧ s.round = 0#3

/-- `ERRCODE` is one of the codes 0 to 5 (R117). -/
abbrev ErrorCodeOk (s : State) : Prop := s.errcode.toNat ≤ 5

/-- `MSGLEN - REM` is a number of bytes (R26): `REM` never exceeds `MSGLEN`. -/
abbrev LengthOk (s : State) : Prop := s.rem.toNat ≤ s.msglen.toNat

/-- The invariant of the machine: what every run from reset keeps (R22, R24, R26, R117). -/
abbrev MachineInv (s : State) : Prop := CountersOk s ∧ SequencerOk s ∧ ErrorCodeOk s ∧ LengthOk s

/-- `n` steps, stopping at the first fault or refusal. -/
def runSteps : Nat → State → Host.Outcome State Fault Refusal
  | 0, s => .next s
  | n + 1, s =>
    match step s with
    | .next t => runSteps n t
    | .fault f => .fault f
    | .refused r => .refused r

/-- A run of `n` steps does not end in a fault; a refusal stands for an access outside the interface contract (R45). -/
def SafeFor (s : State) (n : Nat) : Prop := ∀ f, runSteps n s ≠ .fault f

/-- The instruction the next step runs, if it runs one (a reset or a refused access runs none). -/
def nextInstr (s : State) : Option Instr :=
  match fetch s with
  | .run i _ => some i
  | .settled _ | .faulted _ | .refused _ => none

/-- The instruction is a transaction of HOST, not a micro-op of CORE (R2, R14). -/
def isHostTransaction : Instr → Bool
  | .waitIdle | .waitFill | .load | .save | .roundP0 _ | .roundP1 _ | .roundP2 _ | .roundRsvd | .ksched | .ffwd
  | .waitDone => false
  | .wrCtrlNop | .wrCtrlStart | .wrCtrlAbort | .wrCtrlClrerr | .wrCtrlRsvdLo _ | .wrCtrlRsvdHi _ | .wrMsglen _
  | .wrDin _ | .wrStatus | .wrRemain | .wrDigestA | .wrDigestB | .wrDigestC | .wrRsvdLo _ | .wrRsvdHi _ | .rdCtrl
  | .rdStatus | .rdMsglen | .rdDin | .rdRemain | .rdDigestA | .rdDigestB | .rdDigestC | .rdRsvdLo _
  | .rdRsvdHi _ => true

/-- The instruction is a read of HOST (R63, WE = 0). -/
def isRead : Instr → Bool
  | .rdCtrl | .rdStatus | .rdMsglen | .rdDin | .rdRemain | .rdDigestA | .rdDigestB | .rdDigestC | .rdRsvdLo _
  | .rdRsvdHi _ => true
  | .wrCtrlNop | .wrCtrlStart | .wrCtrlAbort | .wrCtrlClrerr | .wrCtrlRsvdLo _ | .wrCtrlRsvdHi _ | .wrMsglen _
  | .wrDin _ | .wrStatus | .wrRemain | .wrDigestA | .wrDigestB | .wrDigestC | .wrRsvdLo _ | .wrRsvdHi _ | .waitIdle
  | .waitFill | .load | .save | .roundP0 _ | .roundP1 _ | .roundP2 _ | .roundRsvd | .ksched | .ffwd
  | .waitDone => false

/-! ## What a run depends on -/

/-- The two states agree in everything but the datapath registers `A, B, C, AA, BB, CC, X, BLK`. -/
def SameControl (s t : State) : Prop :=
  s.fill = t.fill ∧ s.rem = t.rem ∧ s.msglen = t.msglen ∧ s.phase = t.phase ∧ s.pass = t.pass ∧ s.round = t.round ∧
  s.errcode = t.errcode ∧ s.events = t.events ∧ s.returned = t.returned ∧ s.draws = t.draws

/-- The two states agree in every datapath register that may still be read before it is written (R38): by phase, the
registers that hold a value of the hash in progress or of the finished one. -/
def SameLive (s t : State) : Prop :=
  match s.phase with
  | .idle => True
  | .fill => runningOf s = runningOf t ∧ ∀ j : Fin 64, j.val < s.fill.toNat → readBlk s j = readBlk t j
  | .load => runningOf s = runningOf t ∧ s.blk = t.blk
  | .save => runningOf s = runningOf t ∧ s.x = t.x
  | .round | .ksched => runningOf s = runningOf t ∧ snapshotOf s = snapshotOf t ∧ s.x = t.x
  | .ffwd => runningOf s = runningOf t ∧ snapshotOf s = snapshotOf t
  | .done => runningOf s = runningOf t

/-! ## How far a hash has come -/

/-- The pass that `PASS` counts (R24). -/
def passAt (p : BitVec 2) : PassIx := if p = 0#2 then .p0 else if p = 1#2 then .p1 else .p2

/-- The padded message of the hash in progress, as far as it has been delivered: the zero prefix for a message of
`len` bytes, then the bytes `d` accepted so far (R69, R74). -/
def paddedSoFar (len : Nat) (d : List Byte) : List Byte := List.replicate (padLen len) 0#8 ++ d

/-- The state is where `tiger` is after the bytes `d` of a message of `len` bytes have been accepted: which blocks are
folded into the running state, and what the registers hold of the block at hand (R74, R76, R77, R85, R97, R98). In IDLE
there is no hash, so nothing to say. -/
def HashProgress (rom : Rom) (len : Nat) (d : List Byte) (s : State) : Prop :=
  let bytes := paddedSoFar len d
  let k := bytes.length / 64
  let blk := blockAt bytes (k - 1)
  let start := chain rom bytes (k - 1)
  match s.phase with
  | .idle => True
  | .fill => d.length + s.rem.toNat = len ∧ s.fill.toNat = bytes.length % 64 ∧ runningOf s = chain rom bytes k ∧
      ∀ j : Fin 64, j.val < s.fill.toNat → readBlk s j = bytes.getD (64 * k + j.val) 0#8
  | .load => d.length + s.rem.toNat = len ∧ 1 ≤ k ∧ bytes.length % 64 = 0 ∧ runningOf s = start ∧ s.blk = blk
  | .save => d.length + s.rem.toNat = len ∧ 1 ≤ k ∧ bytes.length % 64 = 0 ∧ runningOf s = start ∧
      s.x = passInput blk .p0
  | .round => d.length + s.rem.toNat = len ∧ 1 ≤ k ∧ bytes.length % 64 = 0 ∧ snapshotOf s = start ∧
      s.x = passInput blk (passAt s.pass) ∧
      runningOf s = roundsOn rom (passAt s.pass) s.x s.round.toNat (passEntry rom start blk (passAt s.pass))
  | .ksched => d.length + s.rem.toNat = len ∧ 1 ≤ k ∧ bytes.length % 64 = 0 ∧ snapshotOf s = start ∧
      s.x = passInput blk (passAt s.pass) ∧
      runningOf s = passOn rom (passAt s.pass) s.x (passEntry rom start blk (passAt s.pass))
  | .ffwd => d.length + s.rem.toNat = len ∧ 1 ≤ k ∧ bytes.length % 64 = 0 ∧ snapshotOf s = start ∧
      runningOf s = passOn rom .p2 (passInput blk .p2) (passEntry rom start blk .p2)
  | .done => d.length = len ∧ runningOf s = tiger rom d

end Sys2Proof.Machine
end

