-- ==== Sys2Proof/Certificates/Slice0/Obligations.lean ====
section
/-! DEFINITION. The statements for the provers, from the numbered rules of spec/. Results are written out as the rules
write them, register by register, so that each also says what stays as it was. -/

open Sys2Proof Sys2Proof.Machine

/-! ## Commands (45_host_interface.md section 2) -/

/-- R102: `WR_CTRL_NOP`, whatever `DATA[63:4]` holds, changes nothing in any state. -/
def Obligations.NopChangesNothing : Prop :=
  (∀ d : Word, cmdOf d = 0#4 → decodeHost (request true 0x00#8 d) = .ok .wrCtrlNop) ∧
  ∀ s : State, exec .wrCtrlNop s = .next s

/-- R103: `START` while busy records `START_BUSY` and changes nothing else; otherwise it loads `IV`, latches `MSGLEN`, and goes
to DONE for an empty message, or writes the zero prefix and goes to FILL. -/
def Obligations.StartBeginsHash : Prop :=
  (∀ d : Word, cmdOf d = 1#4 → decodeHost (request true 0x00#8 d) = .ok .wrCtrlStart) ∧
  (∀ s : State, s.phase ≠ .idle → s.phase ≠ .done →
    exec .wrCtrlStart s = .next { s with errcode := if s.errcode = 0#4 then 2#4 else s.errcode }) ∧
  (∀ s : State, s.phase = .idle ∨ s.phase = .done → s.msglen = 0#64 →
    exec .wrCtrlStart s = .next { s with
      a := 0x0123456789ABCDEF#64, b := 0xFEDCBA9876543210#64, c := 0xF096A5B4C3B2E187#64,
      rem := s.msglen, pass := 0#2, round := 0#3, fill := 0#7, phase := .done }) ∧
  (∀ s : State, s.phase = .idle ∨ s.phase = .done → s.msglen ≠ 0#64 →
    exec .wrCtrlStart s = .next { s with
      a := 0x0123456789ABCDEF#64, b := 0xFEDCBA9876543210#64, c := 0xF096A5B4C3B2E187#64,
      rem := s.msglen, pass := 0#2, round := 0#3,
      blk := Vector.ofFn fun j => if j.val < (64 - s.msglen.toNat % 64) % 64 then 0#8 else s.blk[j.val],
      fill := BitVec.ofNat 7 ((64 - s.msglen.toNat % 64) % 64), phase := .fill })

/-- R104: `ABORT` returns to IDLE from every phase and clears the counters; `ERRCODE`, `MSGLEN` and the datapath
registers stay. -/
def Obligations.AbortReturnsToIdle : Prop :=
  (∀ d : Word, cmdOf d = 2#4 → decodeHost (request true 0x00#8 d) = .ok .wrCtrlAbort) ∧
  ∀ s : State, exec .wrCtrlAbort s =
    .next { s with phase := .idle, fill := 0#7, rem := 0#64, pass := 0#2, round := 0#3 }

/-- R105: `CLRERR` clears `ERRCODE` and nothing else, in every phase. -/
def Obligations.ClrerrClearsError : Prop :=
  (∀ d : Word, cmdOf d = 3#4 → decodeHost (request true 0x00#8 d) = .ok .wrCtrlClrerr) ∧
  ∀ s : State, exec .wrCtrlClrerr s = .next { s with errcode := 0#4 }

/-- R106: a reserved command, CMD 4..15, raises `BAD_CMD`, in every phase, and has no other effect. -/
def Obligations.ReservedCommandRaisesBadCmd : Prop :=
  (∀ d : Word, 4 ≤ (cmdOf d).toNat → (cmdOf d).toNat < 8 →
    decodeHost (request true 0x00#8 d) = .ok (.wrCtrlRsvdLo (cmdOf d))) ∧
  (∀ d : Word, 8 ≤ (cmdOf d).toNat → decodeHost (request true 0x00#8 d) = .ok (.wrCtrlRsvdHi (cmdOf d))) ∧
  ∀ (s : State) (cmd : BitVec 4),
    exec (.wrCtrlRsvdLo cmd) s = .next { s with errcode := if s.errcode = 0#4 then 1#4 else s.errcode } ∧
    exec (.wrCtrlRsvdHi cmd) s = .next { s with errcode := if s.errcode = 0#4 then 1#4 else s.errcode }

/-! ## The other writes (section 3) -/

/-- R107: `WR_MSGLEN` sets the length while no hash is in progress, and records `MSGLEN_BUSY` while one is. -/
def Obligations.MsglenWriteSetsLength : Prop :=
  (∀ d : Word, decodeHost (request true 0x10#8 d) = .ok (.wrMsglen d)) ∧
  (∀ (s : State) (d : Word), s.phase = .idle ∨ s.phase = .done → exec (.wrMsglen d) s = .next { s with msglen := d }) ∧
  (∀ (s : State) (d : Word), s.phase ≠ .idle → s.phase ≠ .done →
    exec (.wrMsglen d) s = .next { s with errcode := if s.errcode = 0#4 then 4#4 else s.errcode })

/-- R108: a write to a read-only or reserved offset raises `BAD_WRITE`, always, and changes nothing else. -/
def Obligations.ReadOnlyWriteRaisesBadWrite : Prop :=
  (∀ d : Word, decodeHost (request true 0x08#8 d) = .ok .wrStatus ∧ decodeHost (request true 0x20#8 d) = .ok .wrRemain ∧
    decodeHost (request true 0x28#8 d) = .ok .wrDigestA ∧ decodeHost (request true 0x30#8 d) = .ok .wrDigestB ∧
    decodeHost (request true 0x38#8 d) = .ok .wrDigestC) ∧
  (∀ (off : BitVec 8) (d : Word), off.toNat % 8 = 0 → 0x40 ≤ off.toNat → off.toNat < 0x80 →
    decodeHost (request true off d) = .ok (.wrRsvdLo off)) ∧
  (∀ (off : BitVec 8) (d : Word), off.toNat % 8 = 0 → 0x80 ≤ off.toNat →
    decodeHost (request true off d) = .ok (.wrRsvdHi off)) ∧
  ∀ (s : State) (off : BitVec 8) (i : Instr),
    i ∈ [.wrStatus, .wrRemain, .wrDigestA, .wrDigestB, .wrDigestC, .wrRsvdLo off, .wrRsvdHi off] →
    exec i s = .next { s with errcode := if s.errcode = 0#4 then 5#4 else s.errcode }

/-! ## The chunker (40_padder_loader.md section 2) -/

/-- R73: in phase FILL a byte goes to `BLK[FILL]`, `FILL` and `REM` count it, and the block is handed over when the incremented
`FILL` is 64; in any other phase the byte is dropped with `DIN_NOT_READY`. `DATA[63:8]` is ignored. In FILL, `FILL` is at
most 63 (R26). -/
def Obligations.DinDeliversByte : Prop :=
  (∀ d : Word, decodeHost (request true 0x18#8 d) = .ok (.wrDin (d.extractLsb' 0 8))) ∧
  (∀ (s : State) (b : Byte), s.phase ≠ .fill →
    exec (.wrDin b) s = .next { s with errcode := if s.errcode = 0#4 then 3#4 else s.errcode }) ∧
  (∀ (s : State) (b : Byte) (h : s.fill.toNat ≤ 63), s.phase = .fill →
    exec (.wrDin b) s = .next { s with
      blk := s.blk.set s.fill.toNat b, fill := s.fill + 1#7, rem := s.rem - 1#64,
      phase := if s.fill = 63#7 then .load else .fill })

/-- R119, the model's choice of log 11: in phase FILL with `FILL` above 63, which no run reaches, `WR_DIN` faults. -/
def Obligations.DinFaultsBeyondBlock : Prop :=
  ∀ (s : State) (b : Byte), s.phase = .fill → 64 ≤ s.fill.toNat →
    exec (.wrDin b) s = .fault .blockIndexOutOfRange

/-! ## Reads (section 4) -/

/-- R30, R109: `RD_STATUS` returns the status word, field by field, and changes nothing else; after reset it is 0. -/
def Obligations.StatusReadComposesFields : Prop :=
  (∀ d : Word, decodeHost (request false 0x08#8 d) = .ok .rdStatus) ∧
  exec .rdStatus State.reset = .next { State.reset with returned := [0#64] } ∧
  ∀ s : State, ∃ v : Word, exec .rdStatus s = .next { s with returned := v :: s.returned } ∧
    (v.getLsbD 0 = true ↔ s.phase ≠ .idle ∧ s.phase ≠ .done) ∧
    (v.getLsbD 1 = true ↔ s.phase = .done) ∧
    (v.getLsbD 2 = true ↔ s.phase = .fill) ∧
    (v.getLsbD 3 = true ↔ s.errcode ≠ 0#4) ∧
    v.extractLsb' 4 4 = s.errcode ∧
    v.extractLsb' 8 3 = phaseCode s.phase ∧
    v.extractLsb' 11 2 = s.pass ∧
    v.extractLsb' 13 3 = s.round ∧
    v.extractLsb' 16 7 = s.fill ∧
    v.extractLsb' 23 41 = 0#41

/-- R110, R111: `RD_MSGLEN` returns `MSGLEN` and `RD_REMAIN` returns `REM`, in every phase, and nothing else changes. -/
def Obligations.LengthReadsReturnRegisters : Prop :=
  (∀ d : Word, decodeHost (request false 0x10#8 d) = .ok .rdMsglen ∧
    decodeHost (request false 0x20#8 d) = .ok .rdRemain) ∧
  ∀ s : State, exec .rdMsglen s = .next { s with returned := s.msglen :: s.returned } ∧
    exec .rdRemain s = .next { s with returned := s.rem :: s.returned }

/-- R112, R113, R114: in phase DONE the digest reads return `A`, `B`, `C`; in any other phase each returns a draw, a value
that nothing constrains, and changes no register. -/
def Obligations.DigestReadsReturnDigestOrDraw : Prop :=
  (∀ d : Word, decodeHost (request false 0x28#8 d) = .ok .rdDigestA ∧
    decodeHost (request false 0x30#8 d) = .ok .rdDigestB ∧ decodeHost (request false 0x38#8 d) = .ok .rdDigestC) ∧
  (∀ s : State, s.phase = .done →
    exec .rdDigestA s = .next { s with returned := s.a :: s.returned } ∧
    exec .rdDigestB s = .next { s with returned := s.b :: s.returned } ∧
    exec .rdDigestC s = .next { s with returned := s.c :: s.returned }) ∧
  (∀ (s : State) (i : Instr), s.phase ≠ .done → i ∈ [.rdDigestA, .rdDigestB, .rdDigestC] →
    exec i s = .next { s with returned := Config.freeWord s.draws :: s.returned, draws := s.draws + 1 })

/-- R115: reads of `CTRL`, `DIN` and reserved offsets return 0, and nothing else changes. -/
def Obligations.WriteOnlyAndReservedReadZero : Prop :=
  (∀ d : Word, decodeHost (request false 0x00#8 d) = .ok .rdCtrl ∧ decodeHost (request false 0x18#8 d) = .ok .rdDin) ∧
  (∀ (off : BitVec 8) (d : Word), off.toNat % 8 = 0 → 0x40 ≤ off.toNat → off.toNat < 0x80 →
    decodeHost (request false off d) = .ok (.rdRsvdLo off)) ∧
  (∀ (off : BitVec 8) (d : Word), off.toNat % 8 = 0 → 0x80 ≤ off.toNat →
    decodeHost (request false off d) = .ok (.rdRsvdHi off)) ∧
  ∀ (s : State) (off : BitVec 8) (i : Instr), i ∈ [.rdCtrl, .rdDin, .rdRsvdLo off, .rdRsvdHi off] →
    exec i s = .next { s with returned := 0#64 :: s.returned }

/-! ## Micro-ops -/

/-- R75, R76: `LOAD` fills every slot of the working buffer, byte by byte: byte `p` of slot `7 - g` is `BLK[8g + p]`; the
phase becomes SAVE, and nothing else changes. -/
def Obligations.LoadBuildsWorkingBuffer : Prop :=
  (∀ (q : BitVec 2) (r : BitVec 3), decodeUop (uopWord 2#3 q r) = .load) ∧
  ∀ s : State, ∃ x : Vector Word 8, exec .load s = .next { s with x := x, phase := .save } ∧
    ∀ (g p : Fin 8), (x[7 - g.val]).extractLsb' (56 - 8 * p.val) 8 = s.blk[8 * g.val + p.val]

/-- R77: `SAVE` copies the running state into the snapshot, clears `PASS` and `ROUND`, and goes to ROUND. -/
def Obligations.SaveTakesSnapshot : Prop :=
  (∀ (q : BitVec 2) (r : BitVec 3), decodeUop (uopWord 3#3 q r) = .save) ∧
  ∀ s : State, exec .save s =
    .next { s with aa := s.a, bb := s.b, cc := s.c, pass := 0#2, round := 0#3, phase := .round }

/-- R78, R83: the S-box lookup multiplexer, with the ROM addresses of its eight reads written out, and the round function:
indices from the updated `c`-role word; subtract, then multiply. -/
def Obligations.RoundFunctionReadsSboxes : Prop :=
  (∀ (rom : Rom) (w : Word),
    sboxTa rom w = rom (0b00#2 ++ w.extractLsb' 56 8) ^^^ rom (0b01#2 ++ w.extractLsb' 40 8) ^^^
      rom (0b10#2 ++ w.extractLsb' 24 8) ^^^ rom (0b11#2 ++ w.extractLsb' 8 8) ∧
    sboxTb rom w = rom (0b11#2 ++ w.extractLsb' 48 8) ^^^ rom (0b10#2 ++ w.extractLsb' 32 8) ^^^
      rom (0b01#2 ++ w.extractLsb' 16 8) ^^^ rom (0b00#2 ++ w.extractLsb' 0 8)) ∧
  ∀ (rom : Rom) (a b c x m : Word),
    roundFn rom ⟨a, b, c⟩ x m = ⟨a - sboxTa rom (c ^^^ x), (b - sboxTb rom (c ^^^ x)) * m, c ^^^ x⟩

/-- R80, R81, R84: each `ROUND p, i` applies the round function to the role words of round `8p + i`, with input `X[i]` and
multiplier 5, 7 or 9; it advances `ROUND`, or after the last round of a pass the phase; nothing else changes. -/
def Obligations.RoundUpdatesRoleWords : Prop :=
  (∀ i : BitVec 3, decodeUop (uopWord 4#3 0#2 i) = .roundP0 i ∧ decodeUop (uopWord 4#3 1#2 i) = .roundP1 i ∧
    decodeUop (uopWord 4#3 2#2 i) = .roundP2 i) ∧
  ∀ (s : State) (i : BitVec 3) (p : Nat) (instr : Instr) (m : Word),
    (p, instr, m) ∈ [(0, .roundP0 i, 5#64), (1, .roundP1 i, 7#64), (2, .roundP2 i, 9#64)] →
    let x := s.x[i.toNat]'i.isLt
    let nextRound := if i = 7#3 then 0#3 else i + 1#3
    let nextPhase := if i = 7#3 then (if p < 2 then Phase.ksched else Phase.ffwd) else s.phase
    ((8 * p + i.toNat) % 3 = 0 →
      let o := roundFn Config.sboxRom ⟨s.a, s.b, s.c⟩ x m
      exec instr s = .next { s with a := o.a, b := o.b, c := o.c, round := nextRound, phase := nextPhase }) ∧
    ((8 * p + i.toNat) % 3 = 1 →
      let o := roundFn Config.sboxRom ⟨s.b, s.c, s.a⟩ x m
      exec instr s = .next { s with b := o.a, c := o.b, a := o.c, round := nextRound, phase := nextPhase }) ∧
    ((8 * p + i.toNat) % 3 = 2 →
      let o := roundFn Config.sboxRom ⟨s.c, s.a, s.b⟩ x m
      exec instr s = .next { s with c := o.a, a := o.b, b := o.c, round := nextRound, phase := nextPhase })

/-- R86: the reserved micro-op encodings fault and write no state; no state that meets the invariant is at one. -/
def Obligations.ReservedRoundFaults : Prop :=
  (∀ i : BitVec 3, decodeUop (uopWord 4#3 3#2 i) = .roundRsvd) ∧
  (∀ s : State, exec .roundRsvd s = .fault .unreachableMicroOp) ∧
  (∀ s : State, s.phase = .round → s.pass = 3#2 → s.errcode.toNat ≤ 5 → s.events = [] →
    step s = .fault .unreachableMicroOp) ∧
  ∀ s : State, MachineInv s → decodeUop (uopOf s) ≠ .roundRsvd

/-- R88: `KS` is the sixteen updates, each reading what the lines before it wrote. -/
def Obligations.KeyScheduleIsSixteenUpdates : Prop :=
  ∀ input : Vector Word 8,
    let x := input.set 0 (input[0] - (input[7] ^^^ 0xA5A5A5A5A5A5A5A5#64))
    let x := x.set 1 (x[1] ^^^ x[0])
    let x := x.set 2 (x[2] + x[1])
    let x := x.set 3 (x[3] - (x[2] ^^^ ((~~~x[1]) <<< 19)))
    let x := x.set 4 (x[4] ^^^ x[3])
    let x := x.set 5 (x[5] + x[4])
    let x := x.set 6 (x[6] - (x[5] ^^^ ((~~~x[4]) >>> 23)))
    let x := x.set 7 (x[7] ^^^ x[6])
    let x := x.set 0 (x[0] + x[7])
    let x := x.set 1 (x[1] - (x[0] ^^^ ((~~~x[7]) <<< 19)))
    let x := x.set 2 (x[2] ^^^ x[1])
    let x := x.set 3 (x[3] + x[2])
    let x := x.set 4 (x[4] - (x[3] ^^^ ((~~~x[2]) >>> 23)))
    let x := x.set 5 (x[5] ^^^ x[4])
    let x := x.set 6 (x[6] + x[5])
    let x := x.set 7 (x[7] - (x[6] ^^^ 0x0123456789ABCDEF#64))
    ks input = x

/-- R90: `KSCHED`, whose `PASS` is 0 or 1, key-schedules all eight slots at once, counts `PASS` up and goes to ROUND; nothing
else changes. -/
def Obligations.KschedSchedulesBuffer : Prop :=
  (∀ (q : BitVec 2) (r : BitVec 3), decodeUop (uopWord 5#3 q r) = .ksched) ∧
  ∀ s : State, s.pass.toNat ≤ 1 →
    ∃ q : BitVec 2, q.toNat = s.pass.toNat + 1 ∧ exec .ksched s = .next { s with x := ks s.x, pass := q, phase := .round }

/-- R92, R93: `FFWD` combines the physical registers with the snapshot, clears `PASS`, `ROUND` and `FILL`, and goes to DONE
when no byte is left, else to FILL; nothing else changes. -/
def Obligations.FfwdCombinesAndCompletes : Prop :=
  (∀ (q : BitVec 2) (r : BitVec 3), decodeUop (uopWord 6#3 q r) = .ffwd) ∧
  ∀ s : State, exec .ffwd s = .next { s with
    a := s.a ^^^ s.aa, b := s.b - s.bb, c := s.c + s.cc, pass := 0#2, round := 0#3, fill := 0#7,
    phase := if s.rem = 0#64 then .done else .fill }

/-- R94: the waiting rows change no state. -/
def Obligations.WaitingRowsChangeNothing : Prop :=
  (∀ (q : BitVec 2) (r : BitVec 3), decodeUop (uopWord 0#3 q r) = .waitIdle ∧
    decodeUop (uopWord 1#3 q r) = .waitFill ∧ decodeUop (uopWord 7#3 q r) = .waitDone) ∧
  ∀ s : State, exec .waitIdle s = .next s ∧ exec .waitFill s = .next s ∧ exec .waitDone s = .next s

/-- R116: no micro-op of the datapath raises an error, whatever its operands: each completes, with `ERRCODE` as it was. -/
def Obligations.DatapathNeverRaisesError : Prop :=
  ∀ (s : State) (i : BitVec 3) (instr : Instr),
    instr ∈ [.load, .save, .roundP0 i, .roundP1 i, .roundP2 i, .ksched, .ffwd] →
    ∃ t, exec instr s = .next t ∧ t.errcode = s.errcode

/-! ## Steps -/

/-- R46, R94, R101, R131, log 2: one step is the next event's instruction run by `exec`: an admitted host access's
transaction, CORE's micro-op at `uop` (also when no event is pending), or a reset; the event is taken off. The reserved
error codes are excluded by a premise (`ErrorCodeOk`, which every step keeps). -/
def Obligations.StepRunsDecodedInstruction : Prop :=
  ∀ (s : State) (es : List Event), ErrorCodeOk s →
    (∀ (t : BitVec 73) (i : Instr), decodeHost t = .ok i → s.events = .host ⟨.w64, t⟩ :: es →
      step s = exec i { s with events := es }) ∧
    (s.events = .core :: es → step s = exec (decodeUop (uopOf s)) { s with events := es }) ∧
    (s.events = [] → step s = exec (decodeUop (uopOf s)) s) ∧
    (s.events = .reset :: es → step s = .next (resetCore { s with events := es }))

/-- R22, R58, R59, R64: the micro-op word of a state is `PHASE`, `PASS`, `ROUND` with the phase codes of the table. -/
def Obligations.UopWordIsSequencerState : Prop :=
  (∀ s : State, (uopOf s).extractLsb' 5 3 = phaseCode s.phase ∧ (uopOf s).extractLsb' 3 2 = s.pass ∧
    (uopOf s).extractLsb' 0 3 = s.round) ∧
  [Phase.idle, .fill, .load, .save, .round, .ksched, .ffwd, .done].map phaseCode =
    [0#3, 1#3, 2#3, 3#3, 4#3, 5#3, 6#3, 7#3]

/-- R45: an access of another width, or at an offset that is not a multiple of 8, has no step; the refusals are named. -/
def Obligations.UnadmittedAccessRefused : Prop :=
  ∀ (s : State) (acc : HostAccess) (es : List Event), ErrorCodeOk s → s.events = .host acc :: es →
    (acc.width ≠ .w64 → step s = .refused .narrowAccess) ∧
    (acc.width = .w64 → (reqOff acc.req).toNat % 8 ≠ 0 → step s = .refused .misalignedAccess)

/-- R45, R101: every 64-bit access at an aligned offset runs to a next state, in every phase, busy or not. The premise `MachineInv`
rules out only states no run reaches. -/
def Obligations.AdmittedAccessAlwaysRuns : Prop :=
  ∀ (s : State) (acc : HostAccess) (es : List Event), MachineInv s → s.events = .host acc :: es →
    acc.width = .w64 → (reqOff acc.req).toNat % 8 = 0 → ∃ t, step s = .next t ∧ t.events = es

/-- U12, the model's reading of log 10: a state that holds a reserved error code has no step but a reset. -/
def Obligations.ReservedErrorCodeFaults : Prop :=
  ∀ s : State, 6 ≤ s.errcode.toNat → (∀ es, s.events ≠ .reset :: es) → step s = .fault .reservedErrorCode

/-- R131: a reset, in any state, brings the control state to its values of R38, those of `State.reset`, and abandons the hash
in progress. -/
def Obligations.ResetClearsControlState : Prop :=
  (State.reset.phase = .idle ∧ State.reset.pass = 0#2 ∧ State.reset.round = 0#3 ∧ State.reset.fill = 0#7 ∧
    State.reset.rem = 0#64 ∧ State.reset.msglen = 0#64 ∧ State.reset.errcode = 0#4) ∧
  ∀ (s : State) (es : List Event), s.events = .reset :: es →
    ∃ t, step s = .next t ∧ t.phase = .idle ∧ t.pass = 0#2 ∧ t.round = 0#3 ∧ t.fill = 0#7 ∧ t.rem = 0#64 ∧
      t.msglen = 0#64 ∧ t.errcode = 0#4

/-! ## Encodings -/

/-- R55, R58, R62, R63, R64: words written out from the spec's encodings decode to the instructions they stand for. -/
def Obligations.SampleWordsDecode : Prop :=
  decodeTableWord 80 0x1000000000000000001 = some .wrCtrlStart ∧
  decodeTableWord 80 0x1000000000000000011 = some .wrCtrlStart ∧
  decodeTableWord 80 0x100000000000000000F = some (.wrCtrlRsvdHi 15#4) ∧
  decodeTableWord 80 0x1100000000000000041 = some (.wrMsglen 65#64) ∧
  decodeTableWord 80 0x11800000000000001FF = some (.wrDin 0xFF#8) ∧
  decodeTableWord 80 0x1800000000000000007 = some (.wrRsvdHi 0x80#8) ∧
  decodeTableWord 80 0x0080000000000000000 = some .rdStatus ∧
  decodeTableWord 80 0x0F80000000000000000 = some (.rdRsvdHi 0xF8#8) ∧
  decodeTableWord 80 0x00C0000000000000000 = none ∧
  decodeTableWord 8 0x40 = some .load ∧
  decodeTableWord 8 0x8C = some (.roundP1 4#3) ∧
  decodeTableWord 8 0x98 = some .roundRsvd ∧
  decodeTableWord 8 0xA8 = some .ksched ∧
  decodeTableWord 8 0xD0 = some .ffwd

/-- Decoding the encoding of any well-formed instruction gives it back, with every operand at every value (R55, R58, R64). -/
def Obligations.DecodeEncodeRoundTrip : Prop :=
  ∀ i : Instr, i.wf = true → decode (encode i) = .ok i

/-- R55: exactly one row of the opcode table selects every admitted request word, and it is the row of the instruction the
decoder gives, which is well-formed. -/
def Obligations.OneTableRowPerRequest : Prop :=
  ∀ t : BitVec 73, (reqOff t).toNat % 8 = 0 →
    ∃ i, decodeHost t = .ok i ∧ i.wf = true ∧ isHostTransaction i = true ∧
      (hostRows.filter (hostRowSelects t)).map (·.name) = [mnemonicOf i]

/-- R64: the micro-op map, by `PHASE` and, in phase ROUND, by `PASS`; exactly one row of the opcode table selects every micro-op
word, and it is the row of the instruction the decoder gives. -/
def Obligations.OneTableRowPerUop : Prop :=
  (∀ (q : BitVec 2) (r : BitVec 3),
    decodeUop (uopWord 0b000#3 q r) = .waitIdle ∧ decodeUop (uopWord 0b001#3 q r) = .waitFill ∧
    decodeUop (uopWord 0b111#3 q r) = .waitDone ∧ decodeUop (uopWord 0b010#3 q r) = .load ∧
    decodeUop (uopWord 0b011#3 q r) = .save ∧ decodeUop (uopWord 0b100#3 0b00#2 r) = .roundP0 r ∧
    decodeUop (uopWord 0b100#3 0b01#2 r) = .roundP1 r ∧ decodeUop (uopWord 0b100#3 0b10#2 r) = .roundP2 r ∧
    decodeUop (uopWord 0b100#3 0b11#2 r) = .roundRsvd ∧ decodeUop (uopWord 0b101#3 q r) = .ksched ∧
    decodeUop (uopWord 0b110#3 q r) = .ffwd) ∧
  ∀ u : BitVec 8, (uopRows.filter (uopRowSelects u)).map (·.name) = [mnemonicOf (decodeUop u)] ∧
    isHostTransaction (decodeUop u) = false

/-- R56, R57: `CMD = DATA[3:0]` selects the command and `BYTE = DATA[7:0]` is the message byte; the bits above them, and the
`DATA` of a read, select nothing. -/
def Obligations.IgnoredBitsSelectNothing : Prop :=
  (∀ d : Word, decodeHost (request true 0x00#8 d) = .ok (decodeCommand (d.extractLsb' 0 4))) ∧
  (∀ d : Word, decodeHost (request true 0x18#8 d) = .ok (.wrDin (d.extractLsb' 0 8))) ∧
  (∀ d d' : Word, d.extractLsb' 0 4 = d'.extractLsb' 0 4 →
    decodeHost (request true 0x00#8 d) = decodeHost (request true 0x00#8 d')) ∧
  (∀ d d' : Word, d.extractLsb' 0 8 = d'.extractLsb' 0 8 →
    decodeHost (request true 0x18#8 d) = decodeHost (request true 0x18#8 d')) ∧
  (∀ (off : BitVec 8) (d d' : Word), decodeHost (request false off d) = decodeHost (request false off d'))

/-! ## Errors (60_exceptions.md) -/

/-- R118: raising an error records its code only when none is recorded, and changes nothing else; `STATUS.ERR` reads 1 while a
code is recorded. -/
def Obligations.RaiseErrorKeepsFirst : Prop :=
  ∀ (k : ErrCode) (s : State),
    (s.errcode = 0#4 → raiseError k s = { s with errcode := errorCode k }) ∧
    (s.errcode ≠ 0#4 → raiseError k s = s) ∧
    ((statusWord s).getLsbD 3 = true ↔ s.errcode ≠ 0#4)

/-- R117, R122: which transaction raises which code, and when. One that raises an error does nothing but record the code, and
that only if none is recorded; every other instruction but `CLRERR` leaves the record as it is. -/
def Obligations.ErrorCodesByCause : Prop :=
  ∀ (i : Instr) (s : State),
    let cause : Option (BitVec 4) :=
      match i with
      | .wrCtrlRsvdLo _ | .wrCtrlRsvdHi _ => some 1#4
      | .wrCtrlStart => if s.phase ≠ .idle ∧ s.phase ≠ .done then some 2#4 else none
      | .wrDin _ => if s.phase ≠ .fill then some 3#4 else none
      | .wrMsglen _ => if s.phase ≠ .idle ∧ s.phase ≠ .done then some 4#4 else none
      | .wrStatus | .wrRemain | .wrDigestA | .wrDigestB | .wrDigestC | .wrRsvdLo _ | .wrRsvdHi _ => some 5#4
      | _ => none
    (∀ k, cause = some k → exec i s = .next { s with errcode := if s.errcode = 0#4 then k else s.errcode }) ∧
    (cause = none → i ≠ .wrCtrlClrerr → ∀ t, exec i s = .next t → t.errcode = s.errcode)

/-- R118, R123: along any step, an error that is recorded stays recorded as it is, unless the step is `CLRERR` or a reset. -/
def Obligations.RecordedErrorIsSticky : Prop :=
  ∀ s t : State, step s = .next t → s.errcode ≠ 0#4 → nextInstr s ≠ some .wrCtrlClrerr →
    (∀ es, s.events ≠ .reset :: es) → t.errcode = s.errcode

/-! ## Frames -/

/-- R17, R20, R21, R31: only the instructions the spec names write the running state, the snapshot, the working buffer and
`MSGLEN`. -/
def Obligations.OnlyNamedInstructionsWriteRegisters : Prop :=
  ∀ (i : Instr) (s t : State), exec i s = .next t →
    ((t.a ≠ s.a ∨ t.b ≠ s.b ∨ t.c ≠ s.c) → i = .wrCtrlStart ∨ i = .ffwd ∨ ∃ k, i ∈ [.roundP0 k, .roundP1 k, .roundP2 k]) ∧
    ((t.aa ≠ s.aa ∨ t.bb ≠ s.bb ∨ t.cc ≠ s.cc) → i = .save) ∧
    (t.x ≠ s.x → i = .load ∨ i = .ksched) ∧
    (t.msglen ≠ s.msglen → ∃ d, i = .wrMsglen d)

/-- R40, R73, R103: every byte of the block buffer reads as before, but for the byte `BLK[FILL]` of an accepted `WR_DIN`, which
reads as that byte, and the zero prefix of an accepted `START`, which reads as 0. -/
def Obligations.BlockBufferFrame : Prop :=
  ∀ (i : Instr) (s t : State) (j : Fin 64), exec i s = .next t →
    readBlk t j =
      match i with
      | .wrDin b => if s.phase = .fill ∧ j.val = s.fill.toNat then b else readBlk s j
      | .wrCtrlStart =>
        if (s.phase = .idle ∨ s.phase = .done) ∧ s.msglen ≠ 0#64 ∧ j.val < padLen s.msglen.toNat then 0#8
        else readBlk s j
      | _ => readBlk s j

/-- R47: every read answers a next state that differs only in what the host has received, by one value, and in the count of
draws. -/
def Obligations.ReadsHaveNoSideEffect : Prop :=
  ∀ (i : Instr) (s : State), isRead i = true →
    ∃ (v : Word) (n : Nat), exec i s = .next { s with returned := v :: s.returned, draws := n }

/-- R96: while a block is processed, no host transaction but `ABORT` changes the sequencer or the datapath. -/
def Obligations.OnlyAbortDisturbsBlock : Prop :=
  ∀ (i : Instr) (s t : State), isHostTransaction i = true → i ≠ .wrCtrlAbort →
    s.phase ∈ [.load, .save, .round, .ksched, .ffwd] → exec i s = .next t →
    t.phase = s.phase ∧ t.pass = s.pass ∧ t.round = s.round ∧ t.a = s.a ∧ t.b = s.b ∧ t.c = s.c ∧
    t.aa = s.aa ∧ t.bb = s.bb ∧ t.cc = s.cc ∧ t.x = s.x

/-- R99: in phase DONE every step but `START`, `ABORT` and reset keeps the phase and the digest. -/
def Obligations.DigestStableInDone : Prop :=
  ∀ s t : State, s.phase = .done → step s = .next t → nextInstr s ≠ some .wrCtrlStart →
    nextInstr s ≠ some .wrCtrlAbort → (∀ es, s.events ≠ .reset :: es) →
    t.phase = .done ∧ t.a = s.a ∧ t.b = s.b ∧ t.c = s.c

/-- R95: a step enters LOAD only by a `WR_DIN` in FILL that completes the block, and leaves the block-processing phases for
FILL only by `FFWD`. -/
def Obligations.BlocksAreProcessedInOrder : Prop :=
  ∀ s t : State, step s = .next t →
    (t.phase = .load → s.phase ≠ .load → s.phase = .fill ∧ s.fill = 63#7 ∧ ∃ b, nextInstr s = some (.wrDin b)) ∧
    (t.phase = .fill → s.phase ∈ [.load, .save, .round, .ksched, .ffwd] →
      s.phase = .ffwd ∧ nextInstr s = some .ffwd)

/-! ## Invariants and safety -/

/-- The invariant of R22, R24, R26 and R117 holds at reset. -/
def Obligations.InvariantHoldsAtReset : Prop := ∀ es : List Event, MachineInv { State.reset with events := es }

/-- Every step keeps it, from every state that meets it, whatever event comes next. -/
def Obligations.StepKeepsInvariant : Prop := ∀ s t : State, MachineInv s → step s = .next t → MachineInv t

/-- A state that meets the invariant has no faulting step: it steps, or the host's access is refused (R119). -/
def Obligations.InvariantStateNeverFaults : Prop := ∀ (s : State) (f : Fault), MachineInv s → step s ≠ .fault f

/-- R86, R119: from reset, no interleaving of CORE steps, host accesses and resets ever reaches a fault. -/
def Obligations.NoRunFromResetFaults : Prop :=
  ∀ (es : List Event) (n : Nat), SafeFor { State.reset with events := es } n

/-! ## What a run depends on -/

/-- R38: no step reads a datapath register that was not written before: two states that agree in the control state and in
the registers still to be read step to states that agree in the same way, so also in what the host has received. -/
def Obligations.UnwrittenRegistersAreNeverRead : Prop :=
  ∀ s t s' : State, SameControl s t → SameLive s t → step s = .next s' →
    ∃ t', step t = .next t' ∧ SameControl s' t' ∧ SameLive s' t'

/-- R34, R37: outside DONE no transaction returns anything of the datapath registers to the host: two states that differ only
in those registers give the host the same answers and the same control state. -/
def Obligations.IntermediateStateIsHidden : Prop :=
  ∀ (i : Instr) (s t s' : State), isHostTransaction i = true → SameControl s t → s.phase ≠ .done →
    exec i s = .next s' → ∃ t', exec i t = .next t' ∧ SameControl s' t'

/-! ## The functions -/

/-- R84: a round is a bijection on the running state, for every ROM, pass, index and working buffer. -/
def Obligations.RoundIsBijective : Prop :=
  ∀ (rom : Rom) (p : PassIx) (i : BitVec 3) (x : Vector Word 8), Function.Bijective (roundOn rom p i x)

/-- R89: the key schedule is invertible. -/
def Obligations.KeyScheduleIsBijective : Prop := Function.Bijective ks

/-- R69: the padding length, the padded message and its length, the number of blocks, and the blocks. -/
def Obligations.PaddingReachesNextMultiple : Prop :=
  (∀ m : List Byte, padMsg m = List.replicate ((64 - m.length % 64) % 64) 0#8 ++ m ∧
    (padMsg m).length % 64 = 0 ∧ m.length ≤ (padMsg m).length ∧
    (∀ n, n % 64 = 0 → m.length ≤ n → (padMsg m).length ≤ n) ∧
    (padMsg m).length = 64 * numBlocks m.length) ∧
  (∀ len : Nat, padLen len = (64 - len % 64) % 64 ∧ padLen len ≤ 63 ∧ numBlocks len = (len + padLen len) / 64 ∧
    numBlocks len = (len + 63) / 64) ∧
  ∀ (m : List Byte) (k : Nat) (j : Fin 64), k < numBlocks m.length →
    (padMsg m)[64 * k + j.val]? = some (blockAt (padMsg m) k)[j.val]

/-- R72: a leading zero byte that does not cross a multiple of 64 bytes does not change the digest, for every ROM. -/
def Obligations.LeadingZeroSameDigest : Prop :=
  ∀ (rom : Rom) (m : List Byte), m.length % 64 ≠ 0 → tiger rom (0#8 :: m) = tiger rom m

/-- R100: the digest text is three words of 16 digits, the most significant first, each the lowercase hexadecimal digit of its
four bits; it determines the digest; the text of the empty message's digest is the spec's. -/
def Obligations.DigestTextIsHex : Prop :=
  (∀ t : Triple, digestText t = hex16 t.a ++ hex16 t.b ++ hex16 t.c ∧ (digestText t).length = 48) ∧
  (∀ (w : Word) (k : Fin 16), (hex16 w).length = 16 ∧ (hex16 w)[k.val]? =
    ['0', '1', '2', '3', '4', '5', '6', '7', '8', '9', 'a', 'b', 'c', 'd', 'e', 'f'][
      (w.extractLsb' (60 - 4 * k.val) 4).toNat]?) ∧
  (∀ t u : Triple, digestText t = digestText u → t = u) ∧
  ∀ rom : Rom, digestText (tiger rom []) = "0123456789abcdeffedcba9876543210f096a5b4c3b2e187".toList

/-! ## What the sequence computes -/

/-- R97: from any LOAD, 29 CORE steps change the running state from `s` to `compress(s, BLK)`. -/
def Obligations.BlockOf29StepsCompresses : Prop :=
  (∀ (rom : Rom) (t : Triple) (blk : Vector Byte 64),
    let x0 := loadblk blk
    let s3 := passOn rom .p2 (ks (ks x0)) (passOn rom .p1 (ks x0) (passOn rom .p0 x0 t))
    compress rom t blk = ⟨s3.a ^^^ t.a, s3.b - t.b, s3.c + t.c⟩) ∧
  ∀ s : State, ErrorCodeOk s → s.phase = .load → s.events = [] →
    ∃ t, runSteps 29 s = .next t ∧ runningOf t = compress Config.sboxRom (runningOf s) s.blk ∧
      t.phase = (if s.rem = 0#64 then .done else .fill) ∧ t.fill = 0#7 ∧ t.rem = s.rem ∧ t.errcode = s.errcode

/-- R74, R95, R97, R98: along every step of every interleaving the registers are where `tiger` is after the bytes accepted so
far: an accepted byte extends the message, an accepted `START` begins an empty one of `MSGLEN` bytes, and nothing else
changes which message is being hashed. In DONE the digest is `tiger` of the whole message. -/
def Obligations.StepKeepsHashProgress : Prop :=
  ∀ (s t : State) (len : Nat) (d : List Byte), MachineInv s → HashProgress Config.sboxRom len d s → step s = .next t →
    (∀ b, nextInstr s = some (.wrDin b) → s.phase = .fill → HashProgress Config.sboxRom len (d ++ [b]) t) ∧
    (nextInstr s = some .wrCtrlStart → s.phase = .idle ∨ s.phase = .done →
      HashProgress Config.sboxRom s.msglen.toNat [] t) ∧
    ((∀ b, ¬(nextInstr s = some (.wrDin b) ∧ s.phase = .fill)) →
      ¬(nextInstr s = some .wrCtrlStart ∧ (s.phase = .idle ∨ s.phase = .done)) →
      HashProgress Config.sboxRom len d t)

/-- R98: from IDLE or DONE with no error recorded, a host that sends any message `m` of fewer than 2^64 bytes as `HASH m` says
reads `tiger(m)`, and no error is raised on the way. -/
def Obligations.HashOfEveryMessageIsTiger : Prop :=
  ∀ (s : State) (m : List Byte), MachineInv s → s.phase = .idle ∨ s.phase = .done → s.errcode = 0#4 →
    m.length < 2 ^ 64 → s.events = hashEvents m →
    ∃ (n : Nat) (t : State) (rest : List Word), runSteps n s = .next t ∧ t.events = [] ∧
      t.errcode = 0#4 ∧ t.phase = .done ∧
      t.returned = (tiger Config.sboxRom m).c :: (tiger Config.sboxRom m).b :: (tiger Config.sboxRom m).a :: rest
end

