-- ==== Sys2Proof/Laws/Decode.lean ====
section
/-! SUPPORT. The fields of a request word, and which bits of it the opcode table's rows look at. -/

namespace Sys2Proof

/-- The fields of a request are what it was built from (R55). -/
@[simp] theorem reqWe_request (we : Bool) (off : BitVec 8) (d : Word) : reqWe (request we off d) = we := by
  unfold reqWe request
  rw [BitVec.getLsbD_append, BitVec.getLsbD_append]
  cases we <;> simp

@[simp] theorem reqOff_request (we : Bool) (off : BitVec 8) (d : Word) : reqOff (request we off d) = off := by
  unfold reqOff request
  apply BitVec.eq_of_getLsbD_eq
  intro i hi
  simp only [BitVec.getLsbD_extractLsb', BitVec.getLsbD_append]
  simp [hi]

@[simp] theorem reqData_request (we : Bool) (off : BitVec 8) (d : Word) : reqData (request we off d) = d := by
  unfold reqData request
  apply BitVec.eq_of_getLsbD_eq
  intro i hi
  simp only [BitVec.getLsbD_extractLsb', BitVec.getLsbD_append]
  simp [hi]

/-- A request is built from its fields (R55). -/
theorem request_fields (t : BitVec 73) : request (reqWe t) (reqOff t) (reqData t) = t := by
  unfold request reqWe reqOff reqData
  apply BitVec.eq_of_getLsbD_eq
  intro i hi
  simp only [BitVec.getLsbD_append, BitVec.getLsbD_extractLsb']
  by_cases h64 : i < 64
  · simp [h64]
  · by_cases h72 : i - 64 < 8
    · simp [h64, h72]; congr 1; omega
    · have : i = 72 := by omega
      subst this
      simp

/-- Decoding a request built from its fields (R101). -/
theorem decodeHost_request (we : Bool) (off : BitVec 8) (d : Word) :
    decodeHost (request we off d) =
      if offAligned off then .ok (if we then decodeWrite off d else decodeRead off) else .error .misalignedOffset := by
  unfold decodeHost
  simp only [reqWe_request, reqOff_request, reqData_request]

/-- The admitted offsets are the multiples of 8 (R45). -/
theorem offAligned_iff (off : BitVec 8) : offAligned off = true ↔ off.toNat % 8 = 0 := by
  revert off; decide

/-- The bits of a request that no HOSTBUS row looks at are those of `DATA` above `CMD` (R55, R56). -/
theorem hostRows_mask : ∀ r ∈ hostRows, r.mask &&& request true 0xFF#8 0xF#64 = r.mask := by decide

/-- A row selects a request by `WE`, `OFF` and `CMD` alone. -/
theorem hostRowSelects_low (we : Bool) (off : BitVec 8) (d : Word) {r : HostRow} (hr : r ∈ hostRows) :
    hostRowSelects (request we off d) r = hostRowSelects (request we off ((cmdOf d).setWidth 64)) r := by
  have hm := hostRows_mask r hr
  have key : request we off d &&& request true 0xFF#8 0xF#64 =
      request we off ((cmdOf d).setWidth 64) &&& request true 0xFF#8 0xF#64 := by
    apply BitVec.eq_of_getLsbD_eq
    intro i hi
    unfold request cmdOf
    simp only [BitVec.getLsbD_and, BitVec.getLsbD_append, BitVec.getLsbD_setWidth, BitVec.getLsbD_extractLsb']
    by_cases h64 : i < 64
    · by_cases h4 : i < 4
      · simp [h64, h4]
      · have h15 : ∀ k : Fin 64, 4 ≤ k.val → (0xF#64).getLsbD k.val = false := by decide
        have h : (0xF#64).getLsbD i = false := h15 ⟨i, h64⟩ (Nat.le_of_not_lt h4)
        simp only [h64, h, decide_true, if_true, Bool.and_false]
    · simp [h64]
  unfold hostRowSelects
  rw [← hm, ← BitVec.and_comm (request true 0xFF#8 0xF#64), ← BitVec.and_assoc, ← BitVec.and_assoc, key]

end Sys2Proof
end

