-- ==== Sys2Proof/Laws/State.lean ====
section
/-! SUPPORT. One lemma per field per update of the state, each true by definition, so that no proof unfolds a record
update. -/

namespace Sys2Proof.Machine

/-! ## The grouped readings of the running state and the snapshot -/

@[simp] theorem runningOf_a (s : State) : (runningOf s).a = s.a := rfl
@[simp] theorem runningOf_b (s : State) : (runningOf s).b = s.b := rfl
@[simp] theorem runningOf_c (s : State) : (runningOf s).c = s.c := rfl
@[simp] theorem snapshotOf_a (s : State) : (snapshotOf s).a = s.aa := rfl
@[simp] theorem snapshotOf_b (s : State) : (snapshotOf s).b = s.bb := rfl
@[simp] theorem snapshotOf_c (s : State) : (snapshotOf s).c = s.cc := rfl

/-! ## `State.withRunning` -/

@[simp] theorem State.withRunning_a (s : State) (t : Triple) : (s.withRunning t).a = t.a := rfl
@[simp] theorem State.withRunning_b (s : State) (t : Triple) : (s.withRunning t).b = t.b := rfl
@[simp] theorem State.withRunning_c (s : State) (t : Triple) : (s.withRunning t).c = t.c := rfl
@[simp] theorem State.withRunning_aa (s : State) (t : Triple) : (s.withRunning t).aa = s.aa := rfl
@[simp] theorem State.withRunning_bb (s : State) (t : Triple) : (s.withRunning t).bb = s.bb := rfl
@[simp] theorem State.withRunning_cc (s : State) (t : Triple) : (s.withRunning t).cc = s.cc := rfl
@[simp] theorem State.withRunning_x (s : State) (t : Triple) : (s.withRunning t).x = s.x := rfl
@[simp] theorem State.withRunning_blk (s : State) (t : Triple) : (s.withRunning t).blk = s.blk := rfl
@[simp] theorem State.withRunning_fill (s : State) (t : Triple) : (s.withRunning t).fill = s.fill := rfl
@[simp] theorem State.withRunning_rem (s : State) (t : Triple) : (s.withRunning t).rem = s.rem := rfl
@[simp] theorem State.withRunning_msglen (s : State) (t : Triple) : (s.withRunning t).msglen = s.msglen := rfl
@[simp] theorem State.withRunning_phase (s : State) (t : Triple) : (s.withRunning t).phase = s.phase := rfl
@[simp] theorem State.withRunning_pass (s : State) (t : Triple) : (s.withRunning t).pass = s.pass := rfl
@[simp] theorem State.withRunning_round (s : State) (t : Triple) : (s.withRunning t).round = s.round := rfl
@[simp] theorem State.withRunning_errcode (s : State) (t : Triple) : (s.withRunning t).errcode = s.errcode := rfl
@[simp] theorem State.withRunning_events (s : State) (t : Triple) : (s.withRunning t).events = s.events := rfl
@[simp] theorem State.withRunning_returned (s : State) (t : Triple) : (s.withRunning t).returned = s.returned := rfl
@[simp] theorem State.withRunning_draws (s : State) (t : Triple) : (s.withRunning t).draws = s.draws := rfl
@[simp] theorem State.withRunning_runningOf (s : State) (t : Triple) : runningOf (s.withRunning t) = t := rfl
@[simp] theorem State.withRunning_snapshotOf (s : State) (t : Triple) : snapshotOf (s.withRunning t) = snapshotOf s := rfl

/-! ## `State.withSnapshot` -/

@[simp] theorem State.withSnapshot_a (s : State) (t : Triple) : (s.withSnapshot t).a = s.a := rfl
@[simp] theorem State.withSnapshot_b (s : State) (t : Triple) : (s.withSnapshot t).b = s.b := rfl
@[simp] theorem State.withSnapshot_c (s : State) (t : Triple) : (s.withSnapshot t).c = s.c := rfl
@[simp] theorem State.withSnapshot_aa (s : State) (t : Triple) : (s.withSnapshot t).aa = t.a := rfl
@[simp] theorem State.withSnapshot_bb (s : State) (t : Triple) : (s.withSnapshot t).bb = t.b := rfl
@[simp] theorem State.withSnapshot_cc (s : State) (t : Triple) : (s.withSnapshot t).cc = t.c := rfl
@[simp] theorem State.withSnapshot_x (s : State) (t : Triple) : (s.withSnapshot t).x = s.x := rfl
@[simp] theorem State.withSnapshot_blk (s : State) (t : Triple) : (s.withSnapshot t).blk = s.blk := rfl
@[simp] theorem State.withSnapshot_fill (s : State) (t : Triple) : (s.withSnapshot t).fill = s.fill := rfl
@[simp] theorem State.withSnapshot_rem (s : State) (t : Triple) : (s.withSnapshot t).rem = s.rem := rfl
@[simp] theorem State.withSnapshot_msglen (s : State) (t : Triple) : (s.withSnapshot t).msglen = s.msglen := rfl
@[simp] theorem State.withSnapshot_phase (s : State) (t : Triple) : (s.withSnapshot t).phase = s.phase := rfl
@[simp] theorem State.withSnapshot_pass (s : State) (t : Triple) : (s.withSnapshot t).pass = s.pass := rfl
@[simp] theorem State.withSnapshot_round (s : State) (t : Triple) : (s.withSnapshot t).round = s.round := rfl
@[simp] theorem State.withSnapshot_errcode (s : State) (t : Triple) : (s.withSnapshot t).errcode = s.errcode := rfl
@[simp] theorem State.withSnapshot_events (s : State) (t : Triple) : (s.withSnapshot t).events = s.events := rfl
@[simp] theorem State.withSnapshot_returned (s : State) (t : Triple) : (s.withSnapshot t).returned = s.returned := rfl
@[simp] theorem State.withSnapshot_draws (s : State) (t : Triple) : (s.withSnapshot t).draws = s.draws := rfl
@[simp] theorem State.withSnapshot_runningOf (s : State) (t : Triple) : runningOf (s.withSnapshot t) = runningOf s := rfl
@[simp] theorem State.withSnapshot_snapshotOf (s : State) (t : Triple) : snapshotOf (s.withSnapshot t) = t := rfl

/-! ## `State.withX` -/

@[simp] theorem State.withX_a (s : State) (v : Vector Word 8) : (s.withX v).a = s.a := rfl
@[simp] theorem State.withX_b (s : State) (v : Vector Word 8) : (s.withX v).b = s.b := rfl
@[simp] theorem State.withX_c (s : State) (v : Vector Word 8) : (s.withX v).c = s.c := rfl
@[simp] theorem State.withX_aa (s : State) (v : Vector Word 8) : (s.withX v).aa = s.aa := rfl
@[simp] theorem State.withX_bb (s : State) (v : Vector Word 8) : (s.withX v).bb = s.bb := rfl
@[simp] theorem State.withX_cc (s : State) (v : Vector Word 8) : (s.withX v).cc = s.cc := rfl
@[simp] theorem State.withX_x (s : State) (v : Vector Word 8) : (s.withX v).x = v := rfl
@[simp] theorem State.withX_blk (s : State) (v : Vector Word 8) : (s.withX v).blk = s.blk := rfl
@[simp] theorem State.withX_fill (s : State) (v : Vector Word 8) : (s.withX v).fill = s.fill := rfl
@[simp] theorem State.withX_rem (s : State) (v : Vector Word 8) : (s.withX v).rem = s.rem := rfl
@[simp] theorem State.withX_msglen (s : State) (v : Vector Word 8) : (s.withX v).msglen = s.msglen := rfl
@[simp] theorem State.withX_phase (s : State) (v : Vector Word 8) : (s.withX v).phase = s.phase := rfl
@[simp] theorem State.withX_pass (s : State) (v : Vector Word 8) : (s.withX v).pass = s.pass := rfl
@[simp] theorem State.withX_round (s : State) (v : Vector Word 8) : (s.withX v).round = s.round := rfl
@[simp] theorem State.withX_errcode (s : State) (v : Vector Word 8) : (s.withX v).errcode = s.errcode := rfl
@[simp] theorem State.withX_events (s : State) (v : Vector Word 8) : (s.withX v).events = s.events := rfl
@[simp] theorem State.withX_returned (s : State) (v : Vector Word 8) : (s.withX v).returned = s.returned := rfl
@[simp] theorem State.withX_draws (s : State) (v : Vector Word 8) : (s.withX v).draws = s.draws := rfl
@[simp] theorem State.withX_runningOf (s : State) (v : Vector Word 8) : runningOf (s.withX v) = runningOf s := rfl
@[simp] theorem State.withX_snapshotOf (s : State) (v : Vector Word 8) : snapshotOf (s.withX v) = snapshotOf s := rfl

/-! ## `State.withBlk` -/

@[simp] theorem State.withBlk_a (s : State) (v : Vector Byte 64) : (s.withBlk v).a = s.a := rfl
@[simp] theorem State.withBlk_b (s : State) (v : Vector Byte 64) : (s.withBlk v).b = s.b := rfl
@[simp] theorem State.withBlk_c (s : State) (v : Vector Byte 64) : (s.withBlk v).c = s.c := rfl
@[simp] theorem State.withBlk_aa (s : State) (v : Vector Byte 64) : (s.withBlk v).aa = s.aa := rfl
@[simp] theorem State.withBlk_bb (s : State) (v : Vector Byte 64) : (s.withBlk v).bb = s.bb := rfl
@[simp] theorem State.withBlk_cc (s : State) (v : Vector Byte 64) : (s.withBlk v).cc = s.cc := rfl
@[simp] theorem State.withBlk_x (s : State) (v : Vector Byte 64) : (s.withBlk v).x = s.x := rfl
@[simp] theorem State.withBlk_blk (s : State) (v : Vector Byte 64) : (s.withBlk v).blk = v := rfl
@[simp] theorem State.withBlk_fill (s : State) (v : Vector Byte 64) : (s.withBlk v).fill = s.fill := rfl
@[simp] theorem State.withBlk_rem (s : State) (v : Vector Byte 64) : (s.withBlk v).rem = s.rem := rfl
@[simp] theorem State.withBlk_msglen (s : State) (v : Vector Byte 64) : (s.withBlk v).msglen = s.msglen := rfl
@[simp] theorem State.withBlk_phase (s : State) (v : Vector Byte 64) : (s.withBlk v).phase = s.phase := rfl
@[simp] theorem State.withBlk_pass (s : State) (v : Vector Byte 64) : (s.withBlk v).pass = s.pass := rfl
@[simp] theorem State.withBlk_round (s : State) (v : Vector Byte 64) : (s.withBlk v).round = s.round := rfl
@[simp] theorem State.withBlk_errcode (s : State) (v : Vector Byte 64) : (s.withBlk v).errcode = s.errcode := rfl
@[simp] theorem State.withBlk_events (s : State) (v : Vector Byte 64) : (s.withBlk v).events = s.events := rfl
@[simp] theorem State.withBlk_returned (s : State) (v : Vector Byte 64) : (s.withBlk v).returned = s.returned := rfl
@[simp] theorem State.withBlk_draws (s : State) (v : Vector Byte 64) : (s.withBlk v).draws = s.draws := rfl
@[simp] theorem State.withBlk_runningOf (s : State) (v : Vector Byte 64) : runningOf (s.withBlk v) = runningOf s := rfl
@[simp] theorem State.withBlk_snapshotOf (s : State) (v : Vector Byte 64) : snapshotOf (s.withBlk v) = snapshotOf s := rfl

/-! ## `State.withCounts` -/

@[simp] theorem State.withCounts_a (s : State) (f : BitVec 7) (r : Word) : (s.withCounts f r).a = s.a := rfl
@[simp] theorem State.withCounts_b (s : State) (f : BitVec 7) (r : Word) : (s.withCounts f r).b = s.b := rfl
@[simp] theorem State.withCounts_c (s : State) (f : BitVec 7) (r : Word) : (s.withCounts f r).c = s.c := rfl
@[simp] theorem State.withCounts_aa (s : State) (f : BitVec 7) (r : Word) : (s.withCounts f r).aa = s.aa := rfl
@[simp] theorem State.withCounts_bb (s : State) (f : BitVec 7) (r : Word) : (s.withCounts f r).bb = s.bb := rfl
@[simp] theorem State.withCounts_cc (s : State) (f : BitVec 7) (r : Word) : (s.withCounts f r).cc = s.cc := rfl
@[simp] theorem State.withCounts_x (s : State) (f : BitVec 7) (r : Word) : (s.withCounts f r).x = s.x := rfl
@[simp] theorem State.withCounts_blk (s : State) (f : BitVec 7) (r : Word) : (s.withCounts f r).blk = s.blk := rfl
@[simp] theorem State.withCounts_fill (s : State) (f : BitVec 7) (r : Word) : (s.withCounts f r).fill = f := rfl
@[simp] theorem State.withCounts_rem (s : State) (f : BitVec 7) (r : Word) : (s.withCounts f r).rem = r := rfl
@[simp] theorem State.withCounts_msglen (s : State) (f : BitVec 7) (r : Word) : (s.withCounts f r).msglen = s.msglen := rfl
@[simp] theorem State.withCounts_phase (s : State) (f : BitVec 7) (r : Word) : (s.withCounts f r).phase = s.phase := rfl
@[simp] theorem State.withCounts_pass (s : State) (f : BitVec 7) (r : Word) : (s.withCounts f r).pass = s.pass := rfl
@[simp] theorem State.withCounts_round (s : State) (f : BitVec 7) (r : Word) : (s.withCounts f r).round = s.round := rfl
@[simp] theorem State.withCounts_errcode (s : State) (f : BitVec 7) (r : Word) : (s.withCounts f r).errcode = s.errcode := rfl
@[simp] theorem State.withCounts_events (s : State) (f : BitVec 7) (r : Word) : (s.withCounts f r).events = s.events := rfl
@[simp] theorem State.withCounts_returned (s : State) (f : BitVec 7) (r : Word) : (s.withCounts f r).returned = s.returned := rfl
@[simp] theorem State.withCounts_draws (s : State) (f : BitVec 7) (r : Word) : (s.withCounts f r).draws = s.draws := rfl
@[simp] theorem State.withCounts_runningOf (s : State) (f : BitVec 7) (r : Word) : runningOf (s.withCounts f r) = runningOf s := rfl
@[simp] theorem State.withCounts_snapshotOf (s : State) (f : BitVec 7) (r : Word) : snapshotOf (s.withCounts f r) = snapshotOf s := rfl

/-! ## `State.withMsglen` -/

@[simp] theorem State.withMsglen_a (s : State) (v : Word) : (s.withMsglen v).a = s.a := rfl
@[simp] theorem State.withMsglen_b (s : State) (v : Word) : (s.withMsglen v).b = s.b := rfl
@[simp] theorem State.withMsglen_c (s : State) (v : Word) : (s.withMsglen v).c = s.c := rfl
@[simp] theorem State.withMsglen_aa (s : State) (v : Word) : (s.withMsglen v).aa = s.aa := rfl
@[simp] theorem State.withMsglen_bb (s : State) (v : Word) : (s.withMsglen v).bb = s.bb := rfl
@[simp] theorem State.withMsglen_cc (s : State) (v : Word) : (s.withMsglen v).cc = s.cc := rfl
@[simp] theorem State.withMsglen_x (s : State) (v : Word) : (s.withMsglen v).x = s.x := rfl
@[simp] theorem State.withMsglen_blk (s : State) (v : Word) : (s.withMsglen v).blk = s.blk := rfl
@[simp] theorem State.withMsglen_fill (s : State) (v : Word) : (s.withMsglen v).fill = s.fill := rfl
@[simp] theorem State.withMsglen_rem (s : State) (v : Word) : (s.withMsglen v).rem = s.rem := rfl
@[simp] theorem State.withMsglen_msglen (s : State) (v : Word) : (s.withMsglen v).msglen = v := rfl
@[simp] theorem State.withMsglen_phase (s : State) (v : Word) : (s.withMsglen v).phase = s.phase := rfl
@[simp] theorem State.withMsglen_pass (s : State) (v : Word) : (s.withMsglen v).pass = s.pass := rfl
@[simp] theorem State.withMsglen_round (s : State) (v : Word) : (s.withMsglen v).round = s.round := rfl
@[simp] theorem State.withMsglen_errcode (s : State) (v : Word) : (s.withMsglen v).errcode = s.errcode := rfl
@[simp] theorem State.withMsglen_events (s : State) (v : Word) : (s.withMsglen v).events = s.events := rfl
@[simp] theorem State.withMsglen_returned (s : State) (v : Word) : (s.withMsglen v).returned = s.returned := rfl
@[simp] theorem State.withMsglen_draws (s : State) (v : Word) : (s.withMsglen v).draws = s.draws := rfl
@[simp] theorem State.withMsglen_runningOf (s : State) (v : Word) : runningOf (s.withMsglen v) = runningOf s := rfl
@[simp] theorem State.withMsglen_snapshotOf (s : State) (v : Word) : snapshotOf (s.withMsglen v) = snapshotOf s := rfl

/-! ## `State.withPhase` -/

@[simp] theorem State.withPhase_a (s : State) (v : Phase) : (s.withPhase v).a = s.a := rfl
@[simp] theorem State.withPhase_b (s : State) (v : Phase) : (s.withPhase v).b = s.b := rfl
@[simp] theorem State.withPhase_c (s : State) (v : Phase) : (s.withPhase v).c = s.c := rfl
@[simp] theorem State.withPhase_aa (s : State) (v : Phase) : (s.withPhase v).aa = s.aa := rfl
@[simp] theorem State.withPhase_bb (s : State) (v : Phase) : (s.withPhase v).bb = s.bb := rfl
@[simp] theorem State.withPhase_cc (s : State) (v : Phase) : (s.withPhase v).cc = s.cc := rfl
@[simp] theorem State.withPhase_x (s : State) (v : Phase) : (s.withPhase v).x = s.x := rfl
@[simp] theorem State.withPhase_blk (s : State) (v : Phase) : (s.withPhase v).blk = s.blk := rfl
@[simp] theorem State.withPhase_fill (s : State) (v : Phase) : (s.withPhase v).fill = s.fill := rfl
@[simp] theorem State.withPhase_rem (s : State) (v : Phase) : (s.withPhase v).rem = s.rem := rfl
@[simp] theorem State.withPhase_msglen (s : State) (v : Phase) : (s.withPhase v).msglen = s.msglen := rfl
@[simp] theorem State.withPhase_phase (s : State) (v : Phase) : (s.withPhase v).phase = v := rfl
@[simp] theorem State.withPhase_pass (s : State) (v : Phase) : (s.withPhase v).pass = s.pass := rfl
@[simp] theorem State.withPhase_round (s : State) (v : Phase) : (s.withPhase v).round = s.round := rfl
@[simp] theorem State.withPhase_errcode (s : State) (v : Phase) : (s.withPhase v).errcode = s.errcode := rfl
@[simp] theorem State.withPhase_events (s : State) (v : Phase) : (s.withPhase v).events = s.events := rfl
@[simp] theorem State.withPhase_returned (s : State) (v : Phase) : (s.withPhase v).returned = s.returned := rfl
@[simp] theorem State.withPhase_draws (s : State) (v : Phase) : (s.withPhase v).draws = s.draws := rfl
@[simp] theorem State.withPhase_runningOf (s : State) (v : Phase) : runningOf (s.withPhase v) = runningOf s := rfl
@[simp] theorem State.withPhase_snapshotOf (s : State) (v : Phase) : snapshotOf (s.withPhase v) = snapshotOf s := rfl

/-! ## `State.withPass` -/

@[simp] theorem State.withPass_a (s : State) (v : BitVec 2) : (s.withPass v).a = s.a := rfl
@[simp] theorem State.withPass_b (s : State) (v : BitVec 2) : (s.withPass v).b = s.b := rfl
@[simp] theorem State.withPass_c (s : State) (v : BitVec 2) : (s.withPass v).c = s.c := rfl
@[simp] theorem State.withPass_aa (s : State) (v : BitVec 2) : (s.withPass v).aa = s.aa := rfl
@[simp] theorem State.withPass_bb (s : State) (v : BitVec 2) : (s.withPass v).bb = s.bb := rfl
@[simp] theorem State.withPass_cc (s : State) (v : BitVec 2) : (s.withPass v).cc = s.cc := rfl
@[simp] theorem State.withPass_x (s : State) (v : BitVec 2) : (s.withPass v).x = s.x := rfl
@[simp] theorem State.withPass_blk (s : State) (v : BitVec 2) : (s.withPass v).blk = s.blk := rfl
@[simp] theorem State.withPass_fill (s : State) (v : BitVec 2) : (s.withPass v).fill = s.fill := rfl
@[simp] theorem State.withPass_rem (s : State) (v : BitVec 2) : (s.withPass v).rem = s.rem := rfl
@[simp] theorem State.withPass_msglen (s : State) (v : BitVec 2) : (s.withPass v).msglen = s.msglen := rfl
@[simp] theorem State.withPass_phase (s : State) (v : BitVec 2) : (s.withPass v).phase = s.phase := rfl
@[simp] theorem State.withPass_pass (s : State) (v : BitVec 2) : (s.withPass v).pass = v := rfl
@[simp] theorem State.withPass_round (s : State) (v : BitVec 2) : (s.withPass v).round = s.round := rfl
@[simp] theorem State.withPass_errcode (s : State) (v : BitVec 2) : (s.withPass v).errcode = s.errcode := rfl
@[simp] theorem State.withPass_events (s : State) (v : BitVec 2) : (s.withPass v).events = s.events := rfl
@[simp] theorem State.withPass_returned (s : State) (v : BitVec 2) : (s.withPass v).returned = s.returned := rfl
@[simp] theorem State.withPass_draws (s : State) (v : BitVec 2) : (s.withPass v).draws = s.draws := rfl
@[simp] theorem State.withPass_runningOf (s : State) (v : BitVec 2) : runningOf (s.withPass v) = runningOf s := rfl
@[simp] theorem State.withPass_snapshotOf (s : State) (v : BitVec 2) : snapshotOf (s.withPass v) = snapshotOf s := rfl

/-! ## `State.withRound` -/

@[simp] theorem State.withRound_a (s : State) (v : BitVec 3) : (s.withRound v).a = s.a := rfl
@[simp] theorem State.withRound_b (s : State) (v : BitVec 3) : (s.withRound v).b = s.b := rfl
@[simp] theorem State.withRound_c (s : State) (v : BitVec 3) : (s.withRound v).c = s.c := rfl
@[simp] theorem State.withRound_aa (s : State) (v : BitVec 3) : (s.withRound v).aa = s.aa := rfl
@[simp] theorem State.withRound_bb (s : State) (v : BitVec 3) : (s.withRound v).bb = s.bb := rfl
@[simp] theorem State.withRound_cc (s : State) (v : BitVec 3) : (s.withRound v).cc = s.cc := rfl
@[simp] theorem State.withRound_x (s : State) (v : BitVec 3) : (s.withRound v).x = s.x := rfl
@[simp] theorem State.withRound_blk (s : State) (v : BitVec 3) : (s.withRound v).blk = s.blk := rfl
@[simp] theorem State.withRound_fill (s : State) (v : BitVec 3) : (s.withRound v).fill = s.fill := rfl
@[simp] theorem State.withRound_rem (s : State) (v : BitVec 3) : (s.withRound v).rem = s.rem := rfl
@[simp] theorem State.withRound_msglen (s : State) (v : BitVec 3) : (s.withRound v).msglen = s.msglen := rfl
@[simp] theorem State.withRound_phase (s : State) (v : BitVec 3) : (s.withRound v).phase = s.phase := rfl
@[simp] theorem State.withRound_pass (s : State) (v : BitVec 3) : (s.withRound v).pass = s.pass := rfl
@[simp] theorem State.withRound_round (s : State) (v : BitVec 3) : (s.withRound v).round = v := rfl
@[simp] theorem State.withRound_errcode (s : State) (v : BitVec 3) : (s.withRound v).errcode = s.errcode := rfl
@[simp] theorem State.withRound_events (s : State) (v : BitVec 3) : (s.withRound v).events = s.events := rfl
@[simp] theorem State.withRound_returned (s : State) (v : BitVec 3) : (s.withRound v).returned = s.returned := rfl
@[simp] theorem State.withRound_draws (s : State) (v : BitVec 3) : (s.withRound v).draws = s.draws := rfl
@[simp] theorem State.withRound_runningOf (s : State) (v : BitVec 3) : runningOf (s.withRound v) = runningOf s := rfl
@[simp] theorem State.withRound_snapshotOf (s : State) (v : BitVec 3) : snapshotOf (s.withRound v) = snapshotOf s := rfl

/-! ## `State.withErrcode` -/

@[simp] theorem State.withErrcode_a (s : State) (v : BitVec 4) : (s.withErrcode v).a = s.a := rfl
@[simp] theorem State.withErrcode_b (s : State) (v : BitVec 4) : (s.withErrcode v).b = s.b := rfl
@[simp] theorem State.withErrcode_c (s : State) (v : BitVec 4) : (s.withErrcode v).c = s.c := rfl
@[simp] theorem State.withErrcode_aa (s : State) (v : BitVec 4) : (s.withErrcode v).aa = s.aa := rfl
@[simp] theorem State.withErrcode_bb (s : State) (v : BitVec 4) : (s.withErrcode v).bb = s.bb := rfl
@[simp] theorem State.withErrcode_cc (s : State) (v : BitVec 4) : (s.withErrcode v).cc = s.cc := rfl
@[simp] theorem State.withErrcode_x (s : State) (v : BitVec 4) : (s.withErrcode v).x = s.x := rfl
@[simp] theorem State.withErrcode_blk (s : State) (v : BitVec 4) : (s.withErrcode v).blk = s.blk := rfl
@[simp] theorem State.withErrcode_fill (s : State) (v : BitVec 4) : (s.withErrcode v).fill = s.fill := rfl
@[simp] theorem State.withErrcode_rem (s : State) (v : BitVec 4) : (s.withErrcode v).rem = s.rem := rfl
@[simp] theorem State.withErrcode_msglen (s : State) (v : BitVec 4) : (s.withErrcode v).msglen = s.msglen := rfl
@[simp] theorem State.withErrcode_phase (s : State) (v : BitVec 4) : (s.withErrcode v).phase = s.phase := rfl
@[simp] theorem State.withErrcode_pass (s : State) (v : BitVec 4) : (s.withErrcode v).pass = s.pass := rfl
@[simp] theorem State.withErrcode_round (s : State) (v : BitVec 4) : (s.withErrcode v).round = s.round := rfl
@[simp] theorem State.withErrcode_errcode (s : State) (v : BitVec 4) : (s.withErrcode v).errcode = v := rfl
@[simp] theorem State.withErrcode_events (s : State) (v : BitVec 4) : (s.withErrcode v).events = s.events := rfl
@[simp] theorem State.withErrcode_returned (s : State) (v : BitVec 4) : (s.withErrcode v).returned = s.returned := rfl
@[simp] theorem State.withErrcode_draws (s : State) (v : BitVec 4) : (s.withErrcode v).draws = s.draws := rfl
@[simp] theorem State.withErrcode_runningOf (s : State) (v : BitVec 4) : runningOf (s.withErrcode v) = runningOf s := rfl
@[simp] theorem State.withErrcode_snapshotOf (s : State) (v : BitVec 4) : snapshotOf (s.withErrcode v) = snapshotOf s := rfl

/-! ## `State.withEvents` -/

@[simp] theorem State.withEvents_a (s : State) (v : List Event) : (s.withEvents v).a = s.a := rfl
@[simp] theorem State.withEvents_b (s : State) (v : List Event) : (s.withEvents v).b = s.b := rfl
@[simp] theorem State.withEvents_c (s : State) (v : List Event) : (s.withEvents v).c = s.c := rfl
@[simp] theorem State.withEvents_aa (s : State) (v : List Event) : (s.withEvents v).aa = s.aa := rfl
@[simp] theorem State.withEvents_bb (s : State) (v : List Event) : (s.withEvents v).bb = s.bb := rfl
@[simp] theorem State.withEvents_cc (s : State) (v : List Event) : (s.withEvents v).cc = s.cc := rfl
@[simp] theorem State.withEvents_x (s : State) (v : List Event) : (s.withEvents v).x = s.x := rfl
@[simp] theorem State.withEvents_blk (s : State) (v : List Event) : (s.withEvents v).blk = s.blk := rfl
@[simp] theorem State.withEvents_fill (s : State) (v : List Event) : (s.withEvents v).fill = s.fill := rfl
@[simp] theorem State.withEvents_rem (s : State) (v : List Event) : (s.withEvents v).rem = s.rem := rfl
@[simp] theorem State.withEvents_msglen (s : State) (v : List Event) : (s.withEvents v).msglen = s.msglen := rfl
@[simp] theorem State.withEvents_phase (s : State) (v : List Event) : (s.withEvents v).phase = s.phase := rfl
@[simp] theorem State.withEvents_pass (s : State) (v : List Event) : (s.withEvents v).pass = s.pass := rfl
@[simp] theorem State.withEvents_round (s : State) (v : List Event) : (s.withEvents v).round = s.round := rfl
@[simp] theorem State.withEvents_errcode (s : State) (v : List Event) : (s.withEvents v).errcode = s.errcode := rfl
@[simp] theorem State.withEvents_events (s : State) (v : List Event) : (s.withEvents v).events = v := rfl
@[simp] theorem State.withEvents_returned (s : State) (v : List Event) : (s.withEvents v).returned = s.returned := rfl
@[simp] theorem State.withEvents_draws (s : State) (v : List Event) : (s.withEvents v).draws = s.draws := rfl
@[simp] theorem State.withEvents_runningOf (s : State) (v : List Event) : runningOf (s.withEvents v) = runningOf s := rfl
@[simp] theorem State.withEvents_snapshotOf (s : State) (v : List Event) : snapshotOf (s.withEvents v) = snapshotOf s := rfl

/-! ## `storeBlk` -/

@[simp] theorem storeBlk_a (s : State) (j : Fin 64) (v : Byte) : (storeBlk s j v).a = s.a := rfl
@[simp] theorem storeBlk_b (s : State) (j : Fin 64) (v : Byte) : (storeBlk s j v).b = s.b := rfl
@[simp] theorem storeBlk_c (s : State) (j : Fin 64) (v : Byte) : (storeBlk s j v).c = s.c := rfl
@[simp] theorem storeBlk_aa (s : State) (j : Fin 64) (v : Byte) : (storeBlk s j v).aa = s.aa := rfl
@[simp] theorem storeBlk_bb (s : State) (j : Fin 64) (v : Byte) : (storeBlk s j v).bb = s.bb := rfl
@[simp] theorem storeBlk_cc (s : State) (j : Fin 64) (v : Byte) : (storeBlk s j v).cc = s.cc := rfl
@[simp] theorem storeBlk_x (s : State) (j : Fin 64) (v : Byte) : (storeBlk s j v).x = s.x := rfl
@[simp] theorem storeBlk_blk (s : State) (j : Fin 64) (v : Byte) : (storeBlk s j v).blk = s.blk.set j.val v := rfl
@[simp] theorem storeBlk_fill (s : State) (j : Fin 64) (v : Byte) : (storeBlk s j v).fill = s.fill := rfl
@[simp] theorem storeBlk_rem (s : State) (j : Fin 64) (v : Byte) : (storeBlk s j v).rem = s.rem := rfl
@[simp] theorem storeBlk_msglen (s : State) (j : Fin 64) (v : Byte) : (storeBlk s j v).msglen = s.msglen := rfl
@[simp] theorem storeBlk_phase (s : State) (j : Fin 64) (v : Byte) : (storeBlk s j v).phase = s.phase := rfl
@[simp] theorem storeBlk_pass (s : State) (j : Fin 64) (v : Byte) : (storeBlk s j v).pass = s.pass := rfl
@[simp] theorem storeBlk_round (s : State) (j : Fin 64) (v : Byte) : (storeBlk s j v).round = s.round := rfl
@[simp] theorem storeBlk_errcode (s : State) (j : Fin 64) (v : Byte) : (storeBlk s j v).errcode = s.errcode := rfl
@[simp] theorem storeBlk_events (s : State) (j : Fin 64) (v : Byte) : (storeBlk s j v).events = s.events := rfl
@[simp] theorem storeBlk_returned (s : State) (j : Fin 64) (v : Byte) : (storeBlk s j v).returned = s.returned := rfl
@[simp] theorem storeBlk_draws (s : State) (j : Fin 64) (v : Byte) : (storeBlk s j v).draws = s.draws := rfl
@[simp] theorem storeBlk_runningOf (s : State) (j : Fin 64) (v : Byte) : runningOf (storeBlk s j v) = runningOf s := rfl
@[simp] theorem storeBlk_snapshotOf (s : State) (j : Fin 64) (v : Byte) : snapshotOf (storeBlk s j v) = snapshotOf s := rfl

/-! ## `returnToHost` -/

@[simp] theorem returnToHost_a (v : Word) (s : State) : (returnToHost v s).a = s.a := rfl
@[simp] theorem returnToHost_b (v : Word) (s : State) : (returnToHost v s).b = s.b := rfl
@[simp] theorem returnToHost_c (v : Word) (s : State) : (returnToHost v s).c = s.c := rfl
@[simp] theorem returnToHost_aa (v : Word) (s : State) : (returnToHost v s).aa = s.aa := rfl
@[simp] theorem returnToHost_bb (v : Word) (s : State) : (returnToHost v s).bb = s.bb := rfl
@[simp] theorem returnToHost_cc (v : Word) (s : State) : (returnToHost v s).cc = s.cc := rfl
@[simp] theorem returnToHost_x (v : Word) (s : State) : (returnToHost v s).x = s.x := rfl
@[simp] theorem returnToHost_blk (v : Word) (s : State) : (returnToHost v s).blk = s.blk := rfl
@[simp] theorem returnToHost_fill (v : Word) (s : State) : (returnToHost v s).fill = s.fill := rfl
@[simp] theorem returnToHost_rem (v : Word) (s : State) : (returnToHost v s).rem = s.rem := rfl
@[simp] theorem returnToHost_msglen (v : Word) (s : State) : (returnToHost v s).msglen = s.msglen := rfl
@[simp] theorem returnToHost_phase (v : Word) (s : State) : (returnToHost v s).phase = s.phase := rfl
@[simp] theorem returnToHost_pass (v : Word) (s : State) : (returnToHost v s).pass = s.pass := rfl
@[simp] theorem returnToHost_round (v : Word) (s : State) : (returnToHost v s).round = s.round := rfl
@[simp] theorem returnToHost_errcode (v : Word) (s : State) : (returnToHost v s).errcode = s.errcode := rfl
@[simp] theorem returnToHost_events (v : Word) (s : State) : (returnToHost v s).events = s.events := rfl
@[simp] theorem returnToHost_returned (v : Word) (s : State) : (returnToHost v s).returned = v :: s.returned := rfl
@[simp] theorem returnToHost_draws (v : Word) (s : State) : (returnToHost v s).draws = s.draws := rfl
@[simp] theorem returnToHost_runningOf (v : Word) (s : State) : runningOf (returnToHost v s) = runningOf s := rfl
@[simp] theorem returnToHost_snapshotOf (v : Word) (s : State) : snapshotOf (returnToHost v s) = snapshotOf s := rfl

/-! ## `returnDraw` -/

@[simp] theorem returnDraw_a (s : State) : (returnDraw s).a = s.a := rfl
@[simp] theorem returnDraw_b (s : State) : (returnDraw s).b = s.b := rfl
@[simp] theorem returnDraw_c (s : State) : (returnDraw s).c = s.c := rfl
@[simp] theorem returnDraw_aa (s : State) : (returnDraw s).aa = s.aa := rfl
@[simp] theorem returnDraw_bb (s : State) : (returnDraw s).bb = s.bb := rfl
@[simp] theorem returnDraw_cc (s : State) : (returnDraw s).cc = s.cc := rfl
@[simp] theorem returnDraw_x (s : State) : (returnDraw s).x = s.x := rfl
@[simp] theorem returnDraw_blk (s : State) : (returnDraw s).blk = s.blk := rfl
@[simp] theorem returnDraw_fill (s : State) : (returnDraw s).fill = s.fill := rfl
@[simp] theorem returnDraw_rem (s : State) : (returnDraw s).rem = s.rem := rfl
@[simp] theorem returnDraw_msglen (s : State) : (returnDraw s).msglen = s.msglen := rfl
@[simp] theorem returnDraw_phase (s : State) : (returnDraw s).phase = s.phase := rfl
@[simp] theorem returnDraw_pass (s : State) : (returnDraw s).pass = s.pass := rfl
@[simp] theorem returnDraw_round (s : State) : (returnDraw s).round = s.round := rfl
@[simp] theorem returnDraw_errcode (s : State) : (returnDraw s).errcode = s.errcode := rfl
@[simp] theorem returnDraw_events (s : State) : (returnDraw s).events = s.events := rfl
@[simp] theorem returnDraw_returned (s : State) : (returnDraw s).returned = Config.freeWord s.draws :: s.returned := rfl
@[simp] theorem returnDraw_draws (s : State) : (returnDraw s).draws = s.draws + 1 := rfl
@[simp] theorem returnDraw_runningOf (s : State) : runningOf (returnDraw s) = runningOf s := rfl
@[simp] theorem returnDraw_snapshotOf (s : State) : snapshotOf (returnDraw s) = snapshotOf s := rfl

/-! ## `clearError` -/

@[simp] theorem clearError_a (s : State) : (clearError s).a = s.a := rfl
@[simp] theorem clearError_b (s : State) : (clearError s).b = s.b := rfl
@[simp] theorem clearError_c (s : State) : (clearError s).c = s.c := rfl
@[simp] theorem clearError_aa (s : State) : (clearError s).aa = s.aa := rfl
@[simp] theorem clearError_bb (s : State) : (clearError s).bb = s.bb := rfl
@[simp] theorem clearError_cc (s : State) : (clearError s).cc = s.cc := rfl
@[simp] theorem clearError_x (s : State) : (clearError s).x = s.x := rfl
@[simp] theorem clearError_blk (s : State) : (clearError s).blk = s.blk := rfl
@[simp] theorem clearError_fill (s : State) : (clearError s).fill = s.fill := rfl
@[simp] theorem clearError_rem (s : State) : (clearError s).rem = s.rem := rfl
@[simp] theorem clearError_msglen (s : State) : (clearError s).msglen = s.msglen := rfl
@[simp] theorem clearError_phase (s : State) : (clearError s).phase = s.phase := rfl
@[simp] theorem clearError_pass (s : State) : (clearError s).pass = s.pass := rfl
@[simp] theorem clearError_round (s : State) : (clearError s).round = s.round := rfl
@[simp] theorem clearError_errcode (s : State) : (clearError s).errcode = 0#4 := rfl
@[simp] theorem clearError_events (s : State) : (clearError s).events = s.events := rfl
@[simp] theorem clearError_returned (s : State) : (clearError s).returned = s.returned := rfl
@[simp] theorem clearError_draws (s : State) : (clearError s).draws = s.draws := rfl
@[simp] theorem clearError_runningOf (s : State) : runningOf (clearError s) = runningOf s := rfl
@[simp] theorem clearError_snapshotOf (s : State) : snapshotOf (clearError s) = snapshotOf s := rfl

/-! ## `raiseError` changes `ERRCODE` alone (R118) -/

@[simp] theorem raiseError_a (k : ErrCode) (s : State) : (raiseError k s).a = s.a := by
  unfold raiseError; split <;> rfl
@[simp] theorem raiseError_b (k : ErrCode) (s : State) : (raiseError k s).b = s.b := by
  unfold raiseError; split <;> rfl
@[simp] theorem raiseError_c (k : ErrCode) (s : State) : (raiseError k s).c = s.c := by
  unfold raiseError; split <;> rfl
@[simp] theorem raiseError_aa (k : ErrCode) (s : State) : (raiseError k s).aa = s.aa := by
  unfold raiseError; split <;> rfl
@[simp] theorem raiseError_bb (k : ErrCode) (s : State) : (raiseError k s).bb = s.bb := by
  unfold raiseError; split <;> rfl
@[simp] theorem raiseError_cc (k : ErrCode) (s : State) : (raiseError k s).cc = s.cc := by
  unfold raiseError; split <;> rfl
@[simp] theorem raiseError_x (k : ErrCode) (s : State) : (raiseError k s).x = s.x := by
  unfold raiseError; split <;> rfl
@[simp] theorem raiseError_blk (k : ErrCode) (s : State) : (raiseError k s).blk = s.blk := by
  unfold raiseError; split <;> rfl
@[simp] theorem raiseError_fill (k : ErrCode) (s : State) : (raiseError k s).fill = s.fill := by
  unfold raiseError; split <;> rfl
@[simp] theorem raiseError_rem (k : ErrCode) (s : State) : (raiseError k s).rem = s.rem := by
  unfold raiseError; split <;> rfl
@[simp] theorem raiseError_msglen (k : ErrCode) (s : State) : (raiseError k s).msglen = s.msglen := by
  unfold raiseError; split <;> rfl
@[simp] theorem raiseError_phase (k : ErrCode) (s : State) : (raiseError k s).phase = s.phase := by
  unfold raiseError; split <;> rfl
@[simp] theorem raiseError_pass (k : ErrCode) (s : State) : (raiseError k s).pass = s.pass := by
  unfold raiseError; split <;> rfl
@[simp] theorem raiseError_round (k : ErrCode) (s : State) : (raiseError k s).round = s.round := by
  unfold raiseError; split <;> rfl
@[simp] theorem raiseError_events (k : ErrCode) (s : State) : (raiseError k s).events = s.events := by
  unfold raiseError; split <;> rfl
@[simp] theorem raiseError_returned (k : ErrCode) (s : State) : (raiseError k s).returned = s.returned := by
  unfold raiseError; split <;> rfl
@[simp] theorem raiseError_draws (k : ErrCode) (s : State) : (raiseError k s).draws = s.draws := by
  unfold raiseError; split <;> rfl
@[simp] theorem raiseError_runningOf (k : ErrCode) (s : State) : runningOf (raiseError k s) = runningOf s := by
  unfold raiseError; split <;> rfl
@[simp] theorem raiseError_snapshotOf (k : ErrCode) (s : State) : snapshotOf (raiseError k s) = snapshotOf s := by
  unfold raiseError; split <;> rfl

/-- The first error is kept (R118). -/
theorem raiseError_errcode (k : ErrCode) (s : State) :
    (raiseError k s).errcode = if s.errcode = 0#4 then errorCode k else s.errcode := by
  unfold raiseError; split <;> rfl

/-! ## `resetCore`: the registers take their reset values, the outside world's fields stay (R131) -/

@[simp] theorem resetCore_a (s : State) : (resetCore s).a = State.reset.a := rfl
@[simp] theorem resetCore_b (s : State) : (resetCore s).b = State.reset.b := rfl
@[simp] theorem resetCore_c (s : State) : (resetCore s).c = State.reset.c := rfl
@[simp] theorem resetCore_aa (s : State) : (resetCore s).aa = State.reset.aa := rfl
@[simp] theorem resetCore_bb (s : State) : (resetCore s).bb = State.reset.bb := rfl
@[simp] theorem resetCore_cc (s : State) : (resetCore s).cc = State.reset.cc := rfl
@[simp] theorem resetCore_x (s : State) : (resetCore s).x = State.reset.x := rfl
@[simp] theorem resetCore_blk (s : State) : (resetCore s).blk = State.reset.blk := rfl
@[simp] theorem resetCore_fill (s : State) : (resetCore s).fill = State.reset.fill := rfl
@[simp] theorem resetCore_rem (s : State) : (resetCore s).rem = State.reset.rem := rfl
@[simp] theorem resetCore_msglen (s : State) : (resetCore s).msglen = State.reset.msglen := rfl
@[simp] theorem resetCore_phase (s : State) : (resetCore s).phase = State.reset.phase := rfl
@[simp] theorem resetCore_pass (s : State) : (resetCore s).pass = State.reset.pass := rfl
@[simp] theorem resetCore_round (s : State) : (resetCore s).round = State.reset.round := rfl
@[simp] theorem resetCore_errcode (s : State) : (resetCore s).errcode = State.reset.errcode := rfl
@[simp] theorem resetCore_events (s : State) : (resetCore s).events = s.events := rfl
@[simp] theorem resetCore_returned (s : State) : (resetCore s).returned = s.returned := rfl
@[simp] theorem resetCore_draws (s : State) : (resetCore s).draws = s.draws := rfl

end Sys2Proof.Machine
end

