-- ==== Sys2Proof/Laws/Ops.lean ====
section
/-! SUPPORT. What each shared operation can do, said once: the block buffer, the pure functions' slots, the digest
reads, raising an error, starting a hash, accepting a byte, a round, and the step's cases. -/

namespace Sys2Proof.Machine

/-! ## The block buffer and the working buffer -/

/-- A stored byte reads back, and every other byte stays (R73). -/
theorem readBlk_storeBlk (s : State) (j k : Fin 64) (b : Byte) :
    readBlk (storeBlk s j b) k = if k = j then b else readBlk s k := by
  simp only [readBlk, storeBlk_blk, Vector.getElem_set]
  by_cases h : k = j
  · simp [h]
  · rw [if_neg h, if_neg (fun e => h (Fin.ext e.symm))]

/-- The zero prefix clears the bytes below `p` and leaves the others (R103). -/
theorem zeroPrefix_get (p : Nat) (blk : Vector Byte 64) (j : Fin 64) :
    (zeroPrefix p blk)[j.val] = if j.val < p then 0#8 else blk[j.val] := by
  simp [zeroPrefix]

/-- Slot `7 - g` of a loaded block is group `g` (R75). -/
theorem loadblk_get (blk : Vector Byte 64) (g : Fin 8) : (loadblk blk)[g.rev.val] = groupWord blk g := by
  have h : (⟨g.rev.val, g.rev.isLt⟩ : Fin 8).rev = g := by ext; simp [Fin.rev]; omega
  rw [← h]
  simp [loadblk]

/-- Setting the role words and reading them back gives them (R81, R19). -/
@[simp] theorem toRoles_fromRoles (r : Roles) (t : Triple) : toRoles r (fromRoles r t) = t := by cases r <;> rfl

@[simp] theorem fromRoles_toRoles (r : Roles) (t : Triple) : fromRoles r (toRoles r t) = t := by cases r <;> rfl

/-! ## Encodings of the control state -/

/-- A phase is read back from its code (R59). -/
@[simp] theorem phaseOfCode_phaseCode (p : Phase) : phaseOfCode (phaseCode p) = p := by cases p <;> rfl

/-- The fields of a micro-op word (R58). -/
theorem uopWord_fields (p : BitVec 3) (q : BitVec 2) (r : BitVec 3) :
    (uopWord p q r).extractLsb' 5 3 = p ∧ (uopWord p q r).extractLsb' 3 2 = q ∧ (uopWord p q r).extractLsb' 0 3 = r := by
  revert p q r; decide

/-- The micro-op at a state's `uop`, by its phase and, in phase ROUND, its pass (R64, R94). -/
theorem decodeUop_uopOf (s : State) :
    decodeUop (uopOf s) =
      match s.phase with
      | .idle => .waitIdle
      | .fill => .waitFill
      | .load => .load
      | .save => .save
      | .round =>
        if s.pass = 0#2 then .roundP0 s.round
        else if s.pass = 1#2 then .roundP1 s.round
        else if s.pass = 2#2 then .roundP2 s.round
        else .roundRsvd
      | .ksched => .ksched
      | .ffwd => .ffwd
      | .done => .waitDone := by
  obtain ⟨h5, h3, h0⟩ := uopWord_fields (phaseCode s.phase) s.pass s.round
  simp only [decodeUop, uopOf, h5, h3, h0]
  cases s.phase <;> rfl

/-! ## The shared operations of the meanings -/

/-- A digest read changes nothing but what the host has received and the count of draws (R47, R112). -/
theorem returnDigestWord_eq (v : Word) (s : State) :
    (s.phase = .done ∧ returnDigestWord v s = returnToHost v s) ∨
      (s.phase ≠ .done ∧ returnDigestWord v s = returnDraw s) := by
  unfold returnDigestWord; split
  · exact .inl ⟨‹_›, rfl⟩
  · exact .inr ⟨‹_›, rfl⟩

/-- An accepted byte: what becomes of each register it writes (R73). -/
theorem acceptByte_spec (j : Fin 64) (b : Byte) (s : State) :
    (acceptByte j b s).blk = s.blk.set j.val b ∧ (acceptByte j b s).fill = s.fill + 1#7 ∧
      (acceptByte j b s).rem = s.rem - 1#64 ∧
      (acceptByte j b s).phase = (if s.fill + 1#7 = 64#7 then .load else s.phase) := by
  unfold acceptByte
  simp only
  split <;> simp

/-- The registers an accepted byte leaves as they are (R73). -/
theorem acceptByte_frame (j : Fin 64) (b : Byte) (s : State) :
    runningOf (acceptByte j b s) = runningOf s ∧ snapshotOf (acceptByte j b s) = snapshotOf s ∧
      (acceptByte j b s).x = s.x ∧ (acceptByte j b s).msglen = s.msglen ∧ (acceptByte j b s).pass = s.pass ∧
      (acceptByte j b s).round = s.round ∧ (acceptByte j b s).errcode = s.errcode ∧
      (acceptByte j b s).events = s.events ∧ (acceptByte j b s).returned = s.returned ∧
      (acceptByte j b s).draws = s.draws := by
  unfold acceptByte
  simp only
  split <;> simp

/-- What an answered `WR_DIN` did (R73). -/
theorem execWrDin_cases {b : Byte} {s t : State} (h : execWrDin b s = .next t) :
    (∃ hj : s.fill.toNat < 64, s.phase = .fill ∧ t = acceptByte ⟨s.fill.toNat, hj⟩ b s) ∨
      (s.phase ≠ .fill ∧ t = raiseError .dinNotReady s) := by
  unfold execWrDin at h
  split at h
  · split at h
    · rename_i hp hj
      exact .inl ⟨hj, hp, (Host.Outcome.next.inj h).symm⟩
    · cases h
  · exact .inr ⟨‹_›, (Host.Outcome.next.inj h).symm⟩

/-- What a round does to the registers (R84). -/
theorem runRound_spec (p : PassIx) (i : BitVec 3) (s : State) :
    runningOf (runRound p i s) = roundOn Config.sboxRom p i s.x (runningOf s) ∧
      (runRound p i s).round = (if i.toNat < 7 then i + 1#3 else 0#3) ∧
      (runRound p i s).phase = (if i.toNat < 7 then s.phase else phaseAfterPass p) := by
  unfold runRound advanceRound
  split <;> simp

/-- The registers a round leaves as they are (R84). -/
theorem runRound_frame (p : PassIx) (i : BitVec 3) (s : State) :
    snapshotOf (runRound p i s) = snapshotOf s ∧ (runRound p i s).x = s.x ∧ (runRound p i s).blk = s.blk ∧
      (runRound p i s).fill = s.fill ∧ (runRound p i s).rem = s.rem ∧ (runRound p i s).msglen = s.msglen ∧
      (runRound p i s).pass = s.pass ∧ (runRound p i s).errcode = s.errcode ∧ (runRound p i s).events = s.events ∧
      (runRound p i s).returned = s.returned ∧ (runRound p i s).draws = s.draws := by
  unfold runRound advanceRound
  split <;> simp

/-! ## What a step can do -/

/-- Every next state of a step, by the event it takes: CORE's micro-op, an admitted host transaction, or a reset. -/
theorem step_cases {s t : State} (h : step s = .next t) :
    (s.events = [] ∧ errorCodeReserved s.errcode = false ∧ exec (decodeUop (uopOf s)) s = .next t) ∨
      (∃ es, s.events = .core :: es ∧ errorCodeReserved s.errcode = false ∧
        exec (decodeUop (uopOf s)) (s.withEvents es) = .next t) ∨
      (∃ acc es i, s.events = .host acc :: es ∧ errorCodeReserved s.errcode = false ∧ acc.width = .w64 ∧
        decodeHost acc.req = .ok i ∧ exec i (s.withEvents es) = .next t) ∨
      (∃ es, s.events = .reset :: es ∧ t = resetCore (s.withEvents es)) := by
  unfold step fetch guardErrorCode at h
  match hev : s.events with
  | [] =>
    rw [hev] at h
    simp only [fetchCore] at h
    by_cases he : errorCodeReserved s.errcode = true
    · rw [if_pos he] at h; cases h
    · rw [if_neg he] at h
      exact .inl ⟨rfl, by simpa using he, h⟩
  | .core :: es =>
    rw [hev] at h
    simp only [fetchCore] at h
    by_cases he : errorCodeReserved s.errcode = true
    · rw [if_pos he] at h; cases h
    · rw [if_neg he] at h
      exact .inr (.inl ⟨es, rfl, by simpa using he, h⟩)
  | .host acc :: es =>
    rw [hev] at h
    simp only [fetchHost] at h
    by_cases he : errorCodeReserved s.errcode = true
    · rw [if_pos he] at h; cases h
    · rw [if_neg he] at h
      by_cases hw : acc.width = .w64
      · rw [if_pos hw] at h
        cases hd : decodeHost acc.req with
        | ok i => rw [hd] at h; exact .inr (.inr (.inl ⟨acc, es, i, rfl, by simpa using he, hw, hd, h⟩))
        | error e => rw [hd] at h; cases e; cases h
      · rw [if_neg hw] at h; cases h
  | .reset :: es =>
    rw [hev] at h
    exact .inr (.inr (.inr ⟨es, rfl, (Host.Outcome.next.inj h).symm⟩))

/-! ## Runs -/

@[simp] theorem runSteps_zero (s : State) : runSteps 0 s = .next s := rfl

/-- A run goes on from the next state. -/
theorem runSteps_next {s t : State} (h : step s = .next t) (n : Nat) : runSteps (n + 1) s = runSteps n t := by
  simp only [runSteps, h]

/-- Two runs one after the other are one run. -/
theorem runSteps_add {s t : State} {n : Nat} (h : runSteps n s = .next t) (k : Nat) :
    runSteps (n + k) s = runSteps k t := by
  induction n generalizing s with
  | zero => cases h; rw [Nat.zero_add]
  | succ n ih =>
    rw [Nat.succ_add]
    simp only [runSteps] at h ⊢
    cases hs : step s with
    | next u => rw [hs] at h; exact ih h
    | fault f => rw [hs] at h; cases h
    | refused r => rw [hs] at h; cases h

end Sys2Proof.Machine
end

