-- ==== Sys2Proof/Laws/Step.lean ====
section
/-! SUPPORT. What one step can do and what a run of CORE steps does: the instruction a step runs, what a host transaction
keeps, and the eight rounds of a pass. -/

namespace Sys2Proof.Machine

/-! ## Shared operations -/

theorem busy_iff (s : State) : busy s = true ↔ s.phase ≠ .idle ∧ s.phase ≠ .done := by
  simp [busy]

/-- An accepted `START` goes to DONE for the empty message and to FILL for any other (R103). -/
theorem startHash_cases (s : State) :
    (s.msglen = 0#64 ∧ (startHash s).phase = .done ∧ (startHash s).fill = 0#7 ∧ (startHash s).blk = s.blk) ∨
      (s.msglen ≠ 0#64 ∧ (startHash s).phase = .fill ∧
        (startHash s).fill = BitVec.ofNat 7 (padLen s.msglen.toNat) ∧
        (startHash s).blk = zeroPrefix (padLen s.msglen.toNat) s.blk) := by
  unfold startHash
  simp only
  split <;> simp [*]

/-- What an accepted `START` sets whatever the length, and what it leaves (R103). -/
theorem startHash_frame (s : State) :
    runningOf (startHash s) = iv ∧ (startHash s).rem = s.msglen ∧ (startHash s).pass = 0#2 ∧ (startHash s).round = 0#3 ∧
      snapshotOf (startHash s) = snapshotOf s ∧ (startHash s).x = s.x ∧ (startHash s).msglen = s.msglen ∧
      (startHash s).errcode = s.errcode ∧ (startHash s).events = s.events ∧ (startHash s).returned = s.returned ∧
      (startHash s).draws = s.draws := by
  unfold startHash
  simp only
  split <;> simp

/-! ## The instruction of a step -/

theorem nextInstr_idle {s : State} (h : s.events = []) (he : errorCodeReserved s.errcode = false) :
    nextInstr s = some (decodeUop (uopOf s)) := by
  simp [nextInstr, fetch, h, guardErrorCode, he, fetchCore]

theorem nextInstr_core {s : State} {es : List Event} (h : s.events = .core :: es)
    (he : errorCodeReserved s.errcode = false) : nextInstr s = some (decodeUop (uopOf s)) := by
  simp [nextInstr, fetch, h, guardErrorCode, he, fetchCore]
  rfl

theorem nextInstr_host {s : State} {es : List Event} {acc : HostAccess} {i : Instr} (h : s.events = .host acc :: es)
    (he : errorCodeReserved s.errcode = false) (hw : acc.width = .w64) (hd : decodeHost acc.req = .ok i) :
    nextInstr s = some i := by
  simp [nextInstr, fetch, h, guardErrorCode, he, fetchHost, hw, hd]

/-- A bus request is never a micro-op (R2). -/
theorem decodeHost_isHostTransaction {t : BitVec 73} {i : Instr} (h : decodeHost t = .ok i) :
    isHostTransaction i = true := by
  unfold decodeHost at h
  split at h
  · cases h
    unfold decodeWrite decodeCommand decodeRead
    repeat' split
    all_goals rfl
  · cases h

/-- A next state is a reset's, or what `exec` answers for the step's instruction with the event taken off. -/
theorem step_exec {s t : State} (h : step s = .next t) :
    (∃ es, s.events = .reset :: es ∧ t = resetCore (s.withEvents es)) ∨
      (∃ es i, (∀ es', s.events ≠ .reset :: es') ∧ nextInstr s = some i ∧ exec i (s.withEvents es) = .next t ∧
        errorCodeReserved s.errcode = false ∧ (isHostTransaction i = true ∨ i = decodeUop (uopOf s))) := by
  rcases step_cases h with ⟨a, b, c⟩ | ⟨es, a, b, c⟩ | ⟨acc, es, i, a, b, c, d, e⟩ | ⟨es, a, b⟩
  · exact .inr ⟨[], _, by simp [a], nextInstr_idle a b, by rw [← a]; exact c, b, .inr rfl⟩
  · exact .inr ⟨es, _, by simp [a], nextInstr_core a b, c, b, .inr rfl⟩
  · exact .inr ⟨es, _, by simp [a], nextInstr_host a b c d, e, b, .inl (decodeHost_isHostTransaction d)⟩
  · exact .inl ⟨es, a, b⟩

theorem errorCodeReserved_eq_false {s : State} (h : ErrorCodeOk s) : errorCodeReserved s.errcode = false := by
  simp [errorCodeReserved, ErrorCodeOk] at *
  omega

/-- With no event pending CORE steps (R94, log 17). -/
theorem step_idle {s : State} (he : ErrorCodeOk s) (hev : s.events = []) : step s = exec (decodeUop (uopOf s)) s := by
  simp [step, fetch, hev, guardErrorCode, fetchCore, errorCodeReserved_eq_false he]

/-! ## What a host transaction keeps -/

/-- Every host transaction but `ABORT`, an accepted `START` and an accepted byte keeps the sequencer, the counters and the
datapath registers (R102 to R115). -/
theorem host_keeps {i : Instr} {s t : State} (hi : isHostTransaction i = true) (h : exec i s = .next t) :
    i = .wrCtrlAbort ∨ (i = .wrCtrlStart ∧ busy s = false ∧ t = startHash s) ∨
      (∃ b, i = .wrDin b ∧ s.phase = .fill) ∨
      (t.phase = s.phase ∧ t.pass = s.pass ∧ t.round = s.round ∧ runningOf t = runningOf s ∧
        snapshotOf t = snapshotOf s ∧ t.x = s.x ∧ t.blk = s.blk ∧ t.fill = s.fill ∧ t.rem = s.rem) := by
  cases i <;> try cases hi
  all_goals simp only [exec, execWrCtrlNop, execWrCtrlStart, execWrCtrlAbort, execWrCtrlClrerr, execWrCtrlRsvdLo,
    execWrCtrlRsvdHi, execWrMsglen, execWrStatus, execWrRemain, execWrDigestA, execWrDigestB, execWrDigestC, execWrRsvdLo,
    execWrRsvdHi, execRdCtrl, execRdStatus, execRdMsglen, execRdDin, execRdRemain, execRdDigestA, execRdDigestB,
    execRdDigestC, execRdRsvdLo, execRdRsvdHi] at h
  case wrCtrlAbort => exact .inl rfl
  case wrDin b =>
    rcases execWrDin_cases h with ⟨hj, hp, rfl⟩ | ⟨hp, rfl⟩
    · exact .inr (.inr (.inl ⟨b, rfl, hp⟩))
    · exact .inr (.inr (.inr (by simp)))
  case wrCtrlStart =>
    by_cases hb : busy s = true
    · rw [if_pos hb] at h; cases h; simp
    · rw [if_neg hb] at h; cases h; exact .inr (.inl ⟨rfl, by simpa using hb, rfl⟩)
  case rdDigestA => cases h; rcases returnDigestWord_eq s.a s with ⟨_, h⟩ | ⟨_, h⟩ <;> simp [h]
  case rdDigestB => cases h; rcases returnDigestWord_eq s.b s with ⟨_, h⟩ | ⟨_, h⟩ <;> simp [h]
  case rdDigestC => cases h; rcases returnDigestWord_eq s.c s with ⟨_, h⟩ | ⟨_, h⟩ <;> simp [h]
  case wrMsglen => split at h <;> cases h <;> simp
  all_goals
    cases h
    simp

/-! ## Rounds and blocks -/

/-- One more round (R85). -/
theorem roundsOn_succ (rom : Rom) (p : PassIx) (x : Vector Word 8) (n : Nat) (t : Triple) :
    roundsOn rom p x (n + 1) t = roundOn rom p (BitVec.ofNat 3 n) x (roundsOn rom p x n t) := by
  simp [roundsOn, List.range_succ]

/-- One more block (R98). -/
theorem chain_succ (rom : Rom) (bytes : List Byte) (n : Nat) :
    chain rom bytes (n + 1) = compress rom (chain rom bytes n) (blockAt bytes n) := by
  simp [chain, List.range_succ]

/-- One step is a run of one step. -/
theorem runSteps_one {s t : State} (h : step s = .next t) : runSteps 1 s = .next t := by
  rw [runSteps_next h, runSteps_zero]

/-- A run, then a run from where it ended. -/
theorem runSteps_trans {s t u : State} {m n : Nat} (h : runSteps m s = .next t) (k : runSteps n t = .next u) :
    runSteps (m + n) s = .next u := by
  rw [runSteps_add h n, k]

/-- `LOAD` with no event pending (R76). -/
theorem step_load {s : State} (he : ErrorCodeOk s) (hev : s.events = []) (hp : s.phase = .load) :
    step s = .next ((s.withX (loadblk s.blk)).withPhase .save) := by
  rw [step_idle he hev, decodeUop_uopOf, hp]; rfl

/-- `SAVE` with no event pending (R77). -/
theorem step_save {s : State} (he : ErrorCodeOk s) (hev : s.events = []) (hp : s.phase = .save) :
    step s =
      .next ((s.withSnapshot (runningOf s)).withPass 0#2 |>.withRound 0#3 |>.withPhase .round) := by
  rw [step_idle he hev, decodeUop_uopOf, hp]; rfl

/-- `KSCHED` with no event pending (R90). -/
theorem step_ksched {s : State} (he : ErrorCodeOk s) (hev : s.events = []) (hp : s.phase = .ksched) :
    step s = .next ((s.withX (ks s.x)).withPass (s.pass + 1#2) |>.withPhase .round) := by
  rw [step_idle he hev, decodeUop_uopOf, hp]; rfl

/-- `FFWD` with no event pending (R93). -/
theorem step_ffwd {s : State} (he : ErrorCodeOk s) (hev : s.events = []) (hp : s.phase = .ffwd) :
    step s = .next ((s.withRunning (ffwdOn (runningOf s) (snapshotOf s))).withPass 0#2 |>.withRound 0#3
      |>.withCounts 0#7 s.rem |>.withPhase (if s.rem = 0#64 then .done else .fill)) := by
  rw [step_idle he hev, decodeUop_uopOf, hp]; rfl

/-- In phase ROUND the micro-op is the round that `PASS` and `ROUND` name (R22, R84). -/
theorem exec_round {s : State} {p : PassIx} (hp : s.phase = .round) (hpass : s.pass.toNat = passNat p) :
    exec (decodeUop (uopOf s)) s = .next (runRound p s.round s) := by
  have hq : s.pass = BitVec.ofNat 2 (passNat p) := BitVec.eq_of_toNat_eq (by rw [hpass]; cases p <;> rfl)
  rw [decodeUop_uopOf, hp, hq]
  cases p <;> rfl

/-- The first `n` rounds of a pass, with no event pending (R85). -/
theorem rounds_run {p : PassIx} {s : State} (he : ErrorCodeOk s) (hev : s.events = []) (hp : s.phase = .round)
    (hpass : s.pass.toNat = passNat p) (h0 : s.round = 0#3) :
    ∀ n, n ≤ 7 → ∃ t, runSteps n s = .next t ∧ t.phase = .round ∧ t.round = BitVec.ofNat 3 n ∧ t.pass = s.pass ∧
      t.x = s.x ∧ snapshotOf t = snapshotOf s ∧ t.events = [] ∧ t.errcode = s.errcode ∧ t.rem = s.rem ∧
      runningOf t = roundsOn Config.sboxRom p s.x n (runningOf s) := by
  intro n
  induction n with
  | zero => intro _; exact ⟨s, rfl, hp, h0, rfl, rfl, rfl, hev, rfl, rfl, rfl⟩
  | succ n ih =>
    intro hn
    obtain ⟨t, hr, h1, h2, h3, h4, h5, h6, h7, h8, h9⟩ := ih (by omega)
    have hst : step t = .next (runRound p t.round t) := by
      rw [step_idle (by unfold ErrorCodeOk at *; rw [h7]; exact he) h6, exec_round h1 (by rw [h3]; exact hpass)]
    obtain ⟨a1, a2, a3⟩ := runRound_spec p t.round t
    obtain ⟨b1, b2, -, -, b5, -, b7, b8, b9, -⟩ := runRound_frame p t.round t
    have hlt : t.round.toNat < 7 := by rw [h2]; simp; omega
    refine ⟨runRound p t.round t, by rw [runSteps_add hr 1, runSteps_next hst]; rfl, ?_, ?_, b7.trans h3, b2.trans h4,
      b1.trans h5, b9.trans h6, b8.trans h7, b5.trans h8, ?_⟩
    · rw [a3, if_pos hlt, h1]
    · rw [a2, if_pos hlt, h2]; apply BitVec.eq_of_toNat_eq; simp
    · rw [a1, h9, h4, h2, roundsOn_succ]

/-- The eight rounds of a pass, with no event pending (R84, R85). -/
theorem pass_run {p : PassIx} {s : State} (he : ErrorCodeOk s) (hev : s.events = []) (hp : s.phase = .round)
    (hpass : s.pass.toNat = passNat p) (h0 : s.round = 0#3) :
    ∃ t, runSteps 8 s = .next t ∧ t.phase = phaseAfterPass p ∧ t.round = 0#3 ∧ t.pass = s.pass ∧ t.x = s.x ∧
      snapshotOf t = snapshotOf s ∧ t.events = [] ∧ t.errcode = s.errcode ∧ t.rem = s.rem ∧
      runningOf t = passOn Config.sboxRom p s.x (runningOf s) := by
  obtain ⟨t, hr, h1, h2, h3, h4, h5, h6, h7, h8, h9⟩ := rounds_run he hev hp hpass h0 7 le_rfl
  have hst : step t = .next (runRound p t.round t) := by
    rw [step_idle (by unfold ErrorCodeOk at *; rw [h7]; exact he) h6, exec_round h1 (by rw [h3]; exact hpass)]
  obtain ⟨a1, a2, a3⟩ := runRound_spec p t.round t
  obtain ⟨b1, b2, -, -, b5, -, b7, b8, b9, -⟩ := runRound_frame p t.round t
  have hlt : ¬t.round.toNat < 7 := by rw [h2]; decide
  refine ⟨runRound p t.round t, by rw [runSteps_add hr 1, runSteps_next hst]; rfl, ?_, ?_, b7.trans h3, b2.trans h4,
    b1.trans h5, b9.trans h6, b8.trans h7, b5.trans h8, ?_⟩
  · rw [a3, if_neg hlt]
  · rw [a2, if_neg hlt]
  · rw [a1, h9, h4, h2]; unfold passOn; rw [← roundsOn_succ]

end Sys2Proof.Machine
end

