-- ==== Sys2Proof/Laws/Hash.lean ====
section
/-! SUPPORT. The functions of the hash on a message that grows by a byte, and what the progress of a hash depends on. -/

namespace Sys2Proof.Machine

/-- No block folded yet (R98). -/
@[simp] theorem chain_zero (rom : Rom) (bytes : List Byte) : chain rom bytes 0 = iv := by simp [chain]

/-- A byte appended changes no block that was complete. -/
theorem blockAt_append (bytes : List Byte) (b : Byte) (k : Nat) (h : 64 * k + 64 ≤ bytes.length) :
    blockAt (bytes ++ [b]) k = blockAt bytes k := by
  apply Vector.ext
  intro i hi
  simp only [blockAt, Vector.getElem_ofFn, List.getD_eq_getElem?_getD]
  rw [List.getElem?_append_left (by omega)]

/-- Nor what the complete blocks fold to. -/
theorem chain_append (rom : Rom) (bytes : List Byte) (b : Byte) (k : Nat) (h : 64 * k ≤ bytes.length) :
    chain rom (bytes ++ [b]) k = chain rom bytes k := by
  induction k with
  | zero => rw [chain_zero, chain_zero]
  | succ k ih => rw [chain_succ, chain_succ, ih (by omega), blockAt_append bytes b k (by omega)]

theorem paddedSoFar_append (len : Nat) (d : List Byte) (b : Byte) :
    paddedSoFar len (d ++ [b]) = paddedSoFar len d ++ [b] := by
  simp [paddedSoFar]

@[simp] theorem paddedSoFar_length (len : Nat) (d : List Byte) :
    (paddedSoFar len d).length = padLen len + d.length := by
  simp [paddedSoFar]

/-- The progress of a hash depends on the sequencer, the counters and the datapath registers only. -/
theorem hashProgress_congr {rom : Rom} {len : Nat} {d : List Byte} {s t : State} (h : HashProgress rom len d s)
    (h1 : t.phase = s.phase) (h2 : t.pass = s.pass) (h3 : t.round = s.round) (h4 : runningOf t = runningOf s)
    (h5 : snapshotOf t = snapshotOf s) (h6 : t.x = s.x) (h7 : t.blk = s.blk) (h8 : t.fill = s.fill)
    (h9 : t.rem = s.rem) : HashProgress rom len d t := by
  unfold HashProgress readBlk at *
  simp only at *
  rw [h1]
  cases hp : s.phase <;> simp only [hp] at h ⊢ <;> simp only [h2, h3, h4, h5, h6, h7, h8, h9] <;> exact h

end Sys2Proof.Machine
end

