-- ==== Sys2Proof/Laws/PerInstr.lean ====
section
/-! SUPPORT. Statements about every instruction as syntax, one lemma per constructor. -/

namespace Sys2Proof.Laws

/-- The names of the opcode-table rows that select the bits of an instruction. -/
def rowsOf : Code → List String
  | .host t => (hostRows.filter (hostRowSelects t)).map (·.name)
  | .uop u => (uopRows.filter (uopRowSelects u)).map (·.name)

/-- Only the low four bits of `DATA` decide the row of a request. -/
theorem rowsOf_host_low (we : Bool) (off : BitVec 8) (d : Word) :
    rowsOf (.host (request we off d)) = rowsOf (.host (request we off ((cmdOf d).setWidth 64))) :=
  congrArg (List.map HostRow.name) (List.filter_congr fun _ hr => hostRowSelects_low we off d hr)

namespace RowOfEncoding

/-- The encoding of a well-formed instruction is selected by exactly one row of the opcode table, its own (R55, R64). -/
def Statement (i : Instr) : Prop := i.wf = true → rowsOf (encode i) = [mnemonicOf i]

theorem wrCtrlNop : Statement .wrCtrlNop := by unfold Statement; decide
theorem wrCtrlStart : Statement .wrCtrlStart := by unfold Statement; decide
theorem wrCtrlAbort : Statement .wrCtrlAbort := by unfold Statement; decide
theorem wrCtrlClrerr : Statement .wrCtrlClrerr := by unfold Statement; decide
theorem wrCtrlRsvdLo (cmd : BitVec 4) : Statement (.wrCtrlRsvdLo cmd) := by unfold Statement; revert cmd; decide
theorem wrCtrlRsvdHi (cmd : BitVec 4) : Statement (.wrCtrlRsvdHi cmd) := by unfold Statement; revert cmd; decide
theorem wrMsglen (len : Word) : Statement (.wrMsglen len) := by
  intro _
  have h : ∀ c : BitVec 4, rowsOf (.host (request true 0x10#8 (c.setWidth 64))) = ["WR_MSGLEN"] := by decide
  exact (rowsOf_host_low true 0x10#8 len).trans (h (cmdOf len))
theorem wrDin (byte : Byte) : Statement (.wrDin byte) := by
  intro _
  have h : ∀ c : BitVec 4, rowsOf (.host (request true 0x18#8 (c.setWidth 64))) = ["WR_DIN"] := by decide
  exact (rowsOf_host_low true 0x18#8 (byte.setWidth 64)).trans (h (cmdOf (byte.setWidth 64)))
theorem wrStatus : Statement .wrStatus := by unfold Statement; decide
theorem wrRemain : Statement .wrRemain := by unfold Statement; decide
theorem wrDigestA : Statement .wrDigestA := by unfold Statement; decide
theorem wrDigestB : Statement .wrDigestB := by unfold Statement; decide
theorem wrDigestC : Statement .wrDigestC := by unfold Statement; decide
theorem wrRsvdLo (off : BitVec 8) : Statement (.wrRsvdLo off) := by unfold Statement; revert off; decide
theorem wrRsvdHi (off : BitVec 8) : Statement (.wrRsvdHi off) := by unfold Statement; revert off; decide
theorem rdCtrl : Statement .rdCtrl := by unfold Statement; decide
theorem rdStatus : Statement .rdStatus := by unfold Statement; decide
theorem rdMsglen : Statement .rdMsglen := by unfold Statement; decide
theorem rdDin : Statement .rdDin := by unfold Statement; decide
theorem rdRemain : Statement .rdRemain := by unfold Statement; decide
theorem rdDigestA : Statement .rdDigestA := by unfold Statement; decide
theorem rdDigestB : Statement .rdDigestB := by unfold Statement; decide
theorem rdDigestC : Statement .rdDigestC := by unfold Statement; decide
theorem rdRsvdLo (off : BitVec 8) : Statement (.rdRsvdLo off) := by unfold Statement; revert off; decide
theorem rdRsvdHi (off : BitVec 8) : Statement (.rdRsvdHi off) := by unfold Statement; revert off; decide
theorem waitIdle : Statement .waitIdle := by unfold Statement; decide
theorem waitFill : Statement .waitFill := by unfold Statement; decide
theorem load : Statement .load := by unfold Statement; decide
theorem save : Statement .save := by unfold Statement; decide
theorem roundP0 (i : BitVec 3) : Statement (.roundP0 i) := by unfold Statement; revert i; decide
theorem roundP1 (i : BitVec 3) : Statement (.roundP1 i) := by unfold Statement; revert i; decide
theorem roundP2 (i : BitVec 3) : Statement (.roundP2 i) := by unfold Statement; revert i; decide
theorem roundRsvd : Statement .roundRsvd := by unfold Statement; decide
theorem ksched : Statement .ksched := by unfold Statement; decide
theorem ffwd : Statement .ffwd := by unfold Statement; decide
theorem waitDone : Statement .waitDone := by unfold Statement; decide

end RowOfEncoding

end Sys2Proof.Laws
end

