-- ==== Sys2Proof/Tests/Slice0.lean ====
section
/-! SUPPORT. Tests of the model against the spec's own vectors (95_test_vectors.md, by row), the decoding of one word a
table row, the well-formedness checks, and for every obligation with hypotheses a witness that meets them. -/

namespace Sys2Proof.Tests

open Sys2Proof.Machine

/-! ## Well-formedness: one ill-formed term a check -/

theorem test_wf_refuses_command_3_as_reserved : (Instr.wrCtrlRsvdLo 3#4).wf = false := by decide
theorem test_wf_refuses_command_8_in_the_low_row : (Instr.wrCtrlRsvdLo 8#4).wf = false := by decide
theorem test_wf_refuses_command_7_in_the_high_row : (Instr.wrCtrlRsvdHi 7#4).wf = false := by decide
theorem test_wf_refuses_reserved_write_offsets :
    (Instr.wrRsvdLo 0x38#8).wf = false ∧ (Instr.wrRsvdLo 0x80#8).wf = false ∧ (Instr.wrRsvdLo 0x44#8).wf = false ∧
      (Instr.wrRsvdHi 0x78#8).wf = false ∧ (Instr.wrRsvdHi 0x81#8).wf = false := by decide
theorem test_wf_refuses_reserved_read_offsets :
    (Instr.rdRsvdLo 0x38#8).wf = false ∧ (Instr.rdRsvdLo 0x80#8).wf = false ∧ (Instr.rdRsvdLo 0x7C#8).wf = false ∧
      (Instr.rdRsvdHi 0x78#8).wf = false ∧ (Instr.rdRsvdHi 0xFC#8).wf = false := by decide
theorem test_wf_admits_the_range_ends :
    (Instr.wrCtrlRsvdLo 4#4).wf = true ∧ (Instr.wrCtrlRsvdLo 7#4).wf = true ∧ (Instr.wrCtrlRsvdHi 15#4).wf = true ∧
      (Instr.wrRsvdLo 0x40#8).wf = true ∧ (Instr.wrRsvdLo 0x78#8).wf = true ∧ (Instr.rdRsvdHi 0x80#8).wf = true ∧
      (Instr.rdRsvdHi 0xF8#8).wf = true := by decide

/-! ## Decoding: a word of every row, written out from R55 to R64 as `{WE, OFF, DATA}` or `{PHASE, PASS, ROUND}` -/

theorem test_decode_commands :
    decodeTableWord 80 0x1000000000000000000 = some .wrCtrlNop ∧
    decodeTableWord 80 0x1000000000000000001 = some .wrCtrlStart ∧
    decodeTableWord 80 0x1000000000000000002 = some .wrCtrlAbort ∧
    decodeTableWord 80 0x1000000000000000003 = some .wrCtrlClrerr ∧
    decodeTableWord 80 0x1000000000000000004 = some (.wrCtrlRsvdLo 4#4) ∧
    decodeTableWord 80 0x1000000000000000007 = some (.wrCtrlRsvdLo 7#4) ∧
    decodeTableWord 80 0x1000000000000000008 = some (.wrCtrlRsvdHi 8#4) := by decide

theorem test_decode_writes :
    decodeTableWord 80 0x110FFFFFFFFFFFFFFFF = some (.wrMsglen 0xFFFFFFFFFFFFFFFF#64) ∧
    decodeTableWord 80 0x11800000000000000A5 = some (.wrDin 0xA5#8) ∧
    decodeTableWord 80 0x1080000000000000000 = some .wrStatus ∧
    decodeTableWord 80 0x1200000000000000000 = some .wrRemain ∧
    decodeTableWord 80 0x1280000000000000000 = some .wrDigestA ∧
    decodeTableWord 80 0x1300000000000000000 = some .wrDigestB ∧
    decodeTableWord 80 0x1380000000000000000 = some .wrDigestC ∧
    decodeTableWord 80 0x1400000000000000000 = some (.wrRsvdLo 0x40#8) ∧
    decodeTableWord 80 0x1780000000000000000 = some (.wrRsvdLo 0x78#8) ∧
    decodeTableWord 80 0x1800000000000000007 = some (.wrRsvdHi 0x80#8) := by decide

theorem test_decode_reads :
    decodeTableWord 80 0x0000000000000000000 = some .rdCtrl ∧
    decodeTableWord 80 0x0080000000000000000 = some .rdStatus ∧
    decodeTableWord 80 0x0100000000000000000 = some .rdMsglen ∧
    decodeTableWord 80 0x0180000000000000000 = some .rdDin ∧
    decodeTableWord 80 0x0200000000000000000 = some .rdRemain ∧
    decodeTableWord 80 0x0280000000000000000 = some .rdDigestA ∧
    decodeTableWord 80 0x0300000000000000000 = some .rdDigestB ∧
    decodeTableWord 80 0x0380000000000000000 = some .rdDigestC ∧
    decodeTableWord 80 0x0400000000000000000 = some (.rdRsvdLo 0x40#8) ∧
    decodeTableWord 80 0x0F80000000000000000 = some (.rdRsvdHi 0xF8#8) := by decide

theorem test_decode_microops :
    decodeTableWord 8 0b00000000 = some .waitIdle ∧
    decodeTableWord 8 0b00100000 = some .waitFill ∧
    decodeTableWord 8 0b01000000 = some .load ∧
    decodeTableWord 8 0b01100000 = some .save ∧
    decodeTableWord 8 0b10000111 = some (.roundP0 7#3) ∧
    decodeTableWord 8 0b10001100 = some (.roundP1 4#3) ∧
    decodeTableWord 8 0b10010001 = some (.roundP2 1#3) ∧
    decodeTableWord 8 0b10011000 = some .roundRsvd ∧
    decodeTableWord 8 0b10101000 = some .ksched ∧
    decodeTableWord 8 0b11010000 = some .ffwd ∧
    decodeTableWord 8 0b11100000 = some .waitDone := by decide

/-- T17, R45: an offset that is not a multiple of 8 is no instruction; nor is a word with a bit above the format's. -/
theorem test_decode_refuses :
    decodeTableWord 80 0x00C0000000000000000 = none ∧ decodeTableWord 80 0x1040000000000000000 = none ∧
    decodeTableWord 80 0x2000000000000000000 = none ∧ decodeTableWord 8 0x100 = none := by decide

/-- R58, R64: the micro-op words of 95_test_vectors.md 3.6 and T18. -/
theorem test_encode_microops :
    encode (.roundP0 0#3) = .uop 0x80#8 ∧ encode (.roundP1 7#3) = .uop 0x8F#8 ∧ encode (.roundP2 6#3) = .uop 0x96#8 ∧
      encode .roundRsvd = .uop 0x98#8 ∧ encode .ksched = .uop 0xA0#8 ∧ encode .save = .uop 0x60#8 := by decide

/-- The requests of the listings P1 and P4. -/
theorem test_notation :
    cmdStart = .host ⟨.w64, 0x1000000000000000001#73⟩ ∧ wr .din 0x41#64 = .host ⟨.w64, 0x1180000000000000041#73⟩ ∧
      rd (.rsvd 0x40#8) = .host ⟨.w64, 0x0400000000000000000#73⟩ := by decide

/-! ## One step on a small state -/

/-- A state in phase `p` with `FILL` and `REM`; the rest as at reset. -/
def inPhase (p : Phase) (fill : BitVec 7) (rem : Word) : State :=
  { State.reset with phase := p, fill := fill, rem := rem }

/-- A state in IDLE with the given `MSGLEN`. -/
def idleWith (len : Word) : State := { State.reset with msglen := len }

/-- FILL as T3: a message of 3 bytes begun. -/
def fillT3 : State := { inPhase .fill 61#7 3#64 with msglen := 3#64 }

/-- A state in phase DONE with a digest. -/
def doneState : State := { inPhase .done 0#7 0#64 with a := 1#64, b := 2#64, c := 3#64 }

/-- The end of a block: FFWD with `REM`, the post-pass state and the snapshot. -/
def inFfwd (rem : Word) (t snap : Triple) : State :=
  ((inPhase .ffwd 64#7 rem).withRunning t).withSnapshot snap |>.withPass 2#2

/-- What one event leaves, if it leaves a next state. -/
def after (s : State) (e : Event) : Option State :=
  match step (s.withEvents [e]) with
  | .next t => some t
  | .fault _ => none
  | .refused _ => none

/-- `STATUS` after one event. -/
def statusAfter (s : State) (e : Event) : Option Word := (after s e).map statusWord

/-- What a read returns. -/
def readAt (s : State) (e : Event) : Option (List Word) := (after s e).map (·.returned)

theorem test_din_61 : (after (inPhase .fill 61#7 3#64) (wr .din 0x61#64)).map
    (fun t => (t.blk[61], t.fill, t.rem, t.phase, statusWord t)) = some (0x61#8, 62#7, 2#64, .fill, 0x3E0105#64) := by
  decide
theorem test_din_completes_block : (after (inPhase .fill 63#7 65#64) (wr .din 0#64)).map
    (fun t => (t.fill, t.rem, t.phase, statusWord t)) = some (64#7, 64#64, .load, 0x400201#64) := by decide
theorem test_din_upper_bits_ignored : (after (inPhase .fill 0#7 64#64) (wr .din 0x1FF#64)).map
    (fun t => (t.blk[0], t.fill, t.rem, statusWord t)) = some (0xFF#8, 1#7, 63#64, 0x10105#64) := by decide
theorem test_din_dropped : statusAfter State.reset (wr .din 0x55#64) = some 0x38#64 ∧
    statusAfter (inPhase .load 64#7 0#64) (wr .din 0x42#64) = some 0x400239#64 ∧
    statusAfter doneState (wr .din 0x42#64) = some 0x73A#64 := by decide

/-- T1. -/
theorem test_reads_at_reset : [rd .status, rd .msglen, rd .remain, rd .ctrl, rd .din, rd (.rsvd 0xF8#8)].map
    (readAt State.reset) = List.replicate 6 (some [0#64]) := by decide
/-- T2, T3, T4. -/
theorem test_start : statusAfter (idleWith 64#64) cmdStart = some 0x105#64 ∧
    statusAfter (idleWith 3#64) cmdStart = some 0x3D0105#64 ∧
    (after (idleWith 0xFFFFFFFFFFFFFFFF#64) cmdStart).map (fun t => (statusWord t, t.rem, t.a)) =
      some (0x10105#64, 0xFFFFFFFFFFFFFFFF#64, 0x0123456789ABCDEF#64) := by decide
/-- T5. -/
theorem test_start_empty : (after (idleWith 0#64) cmdStart).map (fun t => (statusWord t, t.a, t.b, t.c)) =
    some (0x702#64, 0x0123456789ABCDEF#64, 0xFEDCBA9876543210#64, 0xF096A5B4C3B2E187#64) := by decide
/-- T6. -/
theorem test_start_busy : statusAfter fillT3 (wr .ctrl 0x11#64) = some 0x3D012D#64 := by decide
/-- T7. -/
theorem test_msglen_busy : (after fillT3 (wr .msglen 2#64)).map (fun t => (statusWord t, t.msglen)) =
    some (0x3D014D#64, 3#64) := by decide
/-- T8. -/
theorem test_msglen_in_done : (after doneState (wr .msglen 5#64)).map (fun t => (statusWord t, t.msglen, t.a)) =
    some (0x702#64, 5#64, 1#64) := by decide
/-- T9. -/
theorem test_nop : after doneState (wr .ctrl 0x30#64) = some doneState := by decide
/-- T10 and 3.10 of the other read-only offsets. -/
theorem test_read_only_writes : [wr .digestA 0#64, wr .digestB 0#64, wr .digestC 0#64, wr .status 0#64, wr .remain 0#64].map
    (fun e => (after doneState e).map (fun t => (statusWord t, t.a))) = List.replicate 5 (some (0x75A#64, 1#64)) := by
  decide
/-- T11. -/
theorem test_bad_command : statusAfter State.reset (wr .ctrl 0xF#64) = some 0x18#64 ∧
    statusAfter State.reset (wr .ctrl 4#64) = some 0x18#64 := by decide
/-- T12. -/
theorem test_error_is_sticky : statusAfter { State.reset with errcode := 1#4 } (wr .status 0#64) = some 0x18#64 := by
  decide
/-- T13. -/
theorem test_reserved_write : statusAfter State.reset (wr (.rsvd 0x80#8) 7#64) = some 0x58#64 ∧
    statusAfter State.reset (wr (.rsvd 0x40#8) 7#64) = some 0x58#64 := by decide
/-- T14. -/
theorem test_abort : (after { inPhase .round 64#7 64#64 with pass := 1#2, round := 4#3 } cmdAbort).map
    (fun t => (statusWord t, t.rem)) = some (0#64, 0#64) := by decide
/-- T15. -/
theorem test_clrerr : statusAfter { fillT3 with errcode := 3#4 } cmdClrerr = some 0x3D0105#64 := by decide
/-- T16: the draw is a free value; nothing of the core changes. -/
theorem test_digest_read_is_a_draw : step (fillT3.withEvents [rd .digestA]) =
    .next { fillT3 with returned := [Config.freeWord 0], draws := 1 } := rfl
/-- R112 to R114. -/
theorem test_digest_reads : readAt doneState (rd .digestA) = some [1#64] ∧ readAt doneState (rd .digestB) = some [2#64] ∧
    readAt doneState (rd .digestC) = some [3#64] := by decide
/-- R110, R111, R115. -/
theorem test_other_reads : readAt fillT3 (rd .msglen) = some [3#64] ∧ readAt fillT3 (rd .remain) = some [3#64] ∧
    readAt fillT3 (rd .din) = some [0#64] ∧ readAt fillT3 (rd .ctrl) = some [0#64] ∧
    readAt fillT3 (rd (.rsvd 0x40#8)) = some [0#64] := by decide
/-- T17. -/
theorem test_unadmitted : step (fillT3.withEvents [.host ⟨.w64, request false 0x0C#8 0#64⟩]) = .refused .misalignedAccess ∧
    step (fillT3.withEvents [.host ⟨.w32, request false 0x08#8 0#64⟩]) = .refused .narrowAccess := ⟨rfl, rfl⟩
/-- T18. -/
theorem test_reserved_round : step (State.reset.withFetchWord 8 0x98) = .fault .unreachableMicroOp := rfl
/-- R131. -/
theorem test_reset_in_fill : statusAfter { fillT3 with errcode := 5#4 } .reset = some 0#64 := by decide

/-- 3.11: `STATUS` in each phase. -/
theorem test_status_by_phase : [inPhase .fill 61#7 0#64, inPhase .load 64#7 0#64, inPhase .save 64#7 0#64,
    { inPhase .round 64#7 0#64 with pass := 2#2, round := 7#3 }, { inPhase .ksched 64#7 0#64 with pass := 1#2 },
    { inPhase .ffwd 64#7 0#64 with pass := 2#2 }, inPhase .done 0#7 0#64].map (fun s => readAt s (rd .status)) =
    [0x3D0105#64, 0x400201#64, 0x400301#64, 0x40F401#64, 0x400D01#64, 0x401601#64, 0x702#64].map
      (fun w => some [w]) := by decide

/-! ## Micro-ops -/

/-- 3.3: `BLK[j] = j`. -/
theorem test_loadblk_order : loadblk (Vector.ofFn fun j => BitVec.ofNat 8 j.val) =
    #v[0x38393A3B3C3D3E3F#64, 0x3031323334353637#64, 0x28292A2B2C2D2E2F#64, 0x2021222324252627#64,
      0x18191A1B1C1D1E1F#64, 0x1011121314151617#64, 0x08090A0B0C0D0E0F#64, 0x0001020304050607#64] := by decide
/-- 3.3: `BLK[0] = 0x80`. -/
theorem test_load : (after { inPhase .load 64#7 0#64 with blk := (Vector.replicate 64 0#8).set 0 0x80#8 } .core).map
    (fun t => (t.phase, t.x[7], t.x[0])) = some (.save, 0x8000000000000000#64, 0#64) := by decide
theorem test_save : (after { inPhase .save 64#7 0#64 with a := 1#64, b := 2#64, c := 3#64 } .core).map
    (fun t => (t.phase, t.pass, t.round, t.aa, t.bb, t.cc)) = some (.round, 0#2, 0#3, 1#64, 2#64, 3#64) := by decide
/-- 3.7: all zero. -/
theorem test_ksched : (after { inPhase .ksched 64#7 0#64 with pass := 1#2 } .core).map
    (fun t => (t.phase, t.pass, t.x)) = some (.round, 2#2,
      #v[0xD1D1D1F3F3EF0F10#64, 0xC77777B0B09B4B4B#64, 0x9D2D2DEAEAC11110#64, 0x25B5B6737346B6B5#64,
        0x62D2D1D1B1A30906#64, 0xEA5A59593926ACA3#64, 0x61D1D0F2D2BB6158#64, 0x1684E2043E8407FE#64]) := by decide
/-- 3.7: all ones. -/
theorem test_ks_ones : ks (Vector.replicate 8 0xFFFFFFFFFFFFFFFF#64) =
    #v[0x1D1D1C0C0C08F0EE#64, 0x08888970B0A1696C#64, 0x52D2D32AEAFB3335#64, 0xDB5B5BB37388D8DB#64,
      0x9C1C1C8E4DA0E768#64, 0xEB6B6BF93AD2BD30#64, 0x73F3F592D46F71E6#64, 0x04A6C571089E8F40#64] := by decide
/-- 3.8, first row; the block was the last. -/
theorem test_ffwd : (after (inFfwd 0#64 ⟨0x1111111111111111#64, 0x1111111111111111#64, 0x1111111111111111#64⟩ iv) .core).map
    (fun t => (t.a, t.b, t.c, statusWord t)) =
    some (0x1032547698BADCFE#64, 0x123456789ABCDF01#64, 0x01A7B6C5D4C3F298#64, 0x702#64) := by decide
/-- 3.8, second row (both wraps); a block is left. -/
theorem test_ffwd_wraps : (after (inFfwd 64#64 ⟨0#64, 0#64, 0xFFFFFFFFFFFFFFFF#64⟩ ⟨0xFFFFFFFFFFFFFFFF#64, 1#64, 1#64⟩)
      .core).map (fun t => (t.a, t.b, t.c, statusWord t)) =
    some (0xFFFFFFFFFFFFFFFF#64, 0xFFFFFFFFFFFFFFFF#64, 0#64, 0x105#64) := by decide
/-- R94. -/
theorem test_waiting_rows : after State.reset .core = some State.reset ∧ after fillT3 .core = some fillT3 ∧
    after doneState .core = some doneState := by decide

/-- R84: how a round advances the sequencer, whatever the S-boxes hold. -/
theorem test_round_advances :
    (after { inPhase .round 64#7 0#64 with pass := 0#2, round := 7#3 } .core).map (fun t => (t.phase, t.pass, t.round)) =
      some (.ksched, 0#2, 0#3) ∧
    (after { inPhase .round 64#7 0#64 with pass := 1#2, round := 3#3 } .core).map (fun t => (t.phase, t.pass, t.round)) =
      some (.round, 1#2, 4#3) ∧
    (after { inPhase .round 64#7 0#64 with pass := 2#2, round := 7#3 } .core).map (fun t => (t.phase, t.pass, t.round)) =
      some (.ffwd, 2#2, 0#3) := ⟨rfl, rfl, rfl⟩

/-! ## The pure functions under the synthetic tables of 95_test_vectors.md section 2, by ROM address `256 (t - 1) + v` -/

def sboxZero : Rom := fun _ => 0#64

/-- Table number in the top nibble, index in byte `t - 1`. -/
def sboxDiag : Rom := fun r =>
  BitVec.ofNat 64 ((r.toNat / 256 + 1) * 2 ^ 60 + (r.toNat % 256) * 2 ^ (8 * (r.toNat / 256)))

def sboxMix : Rom := fun r => BitVec.ofNat 64 ((r.toNat + 1) * 0x9E3779B97F4A7C15)

/-- Section 2, sample entries. -/
theorem test_sbox_entries : sboxRead sboxDiag .t2 0xA5#8 = 0x200000000000A500#64 ∧
    sboxRead sboxDiag .t4 0x83#8 = 0x4000000083000000#64 ∧ sboxRead sboxMix .t4 0xFF#8 = 0xDDE6E5FD29F05400#64 := by
  decide
/-- 3.4. -/
theorem test_sboxmux : sboxTa sboxDiag 0x0123456789ABCDEF#64 = 0x40000000CD894501#64 ∧
    sboxTb sboxDiag 0x0123456789ABCDEF#64 = 0x400000002367ABEF#64 ∧
    sboxTa sboxMix 0xF096A5B4C3D383E4#64 = 0x9720654089F5569B#64 ∧
    sboxTb sboxMix 0xF096A5B4C3D383E4#64 = 0x0FFC1E300948A317#64 := by decide
/-- 3.5, first and last rows. -/
theorem test_round_function : roundFn sboxDiag iv 0x616263#64 5#64 =
      ⟨0xC123456705E827FF#64, 0xBA4FA4F75E1CD6DC#64, 0xF096A5B4C3D383E4#64⟩ ∧
    roundFn sboxMix ⟨0xFFFFFFFFFFFFFFFF#64, 0xFFFFFFFFFFFFFFFF#64, 0xFFFFFFFFFFFFFFFF#64⟩ 0xFFFFFFFFFFFFFFFF#64 9#64 =
      ⟨0xFDF7FFF1038F0FFF#64, 0xEDB7FF7920078FF7#64, 0#64⟩ := by decide
/-- 3.6: the role rotation (`ROUND 0, 1`) and its continuation across passes (`ROUND 1, 0`). -/
theorem test_round_roles : roundOn sboxDiag .p0 1#3 #v[0x616263#64, 0#64, 0#64, 0#64, 0#64, 0#64, 0#64, 0#64]
      ⟨0xC123456705E827FF#64, 0xBA4FA4F75E1CD6DC#64, 0xF096A5B4C3D383E4#64⟩ =
      ⟨0xC123456705E827FF#64, 0x7A4FA4F73717911B#64, 0x72F13C87221A0679#64⟩ ∧
    roundOn sboxDiag .p1 0#3 #v[0xD1D1CAF1090F08FB#64, 0#64, 0#64, 0#64, 0#64, 0#64, 0#64, 0#64]
      ⟨0xDC71C7021C520669#64, 0xF1C71C08BB14C281#64, 0x398EE91088A335F9#64⟩ =
      ⟨0x471C710E256E6C89#64, 0x2016D6F9B21BCA7A#64, 0xF98EE90FBDF05FD9#64⟩ := by decide
/-- 3.1. -/
theorem test_padding : [0, 1, 3, 55, 56, 63, 64, 65, 127, 128, 129, 2 ^ 64 - 1].map (fun n => (padLen n, numBlocks n)) =
    [(0, 0), (63, 1), (61, 1), (9, 1), (8, 1), (1, 1), (0, 1), (63, 2), (1, 2), (0, 2), (63, 3), (1, 2 ^ 58)] := by decide
/-- 3.9: `"abc"`. -/
theorem test_tiger_abc : tiger sboxDiag [0x61#8, 0x62#8, 0x63#8] =
    ⟨0xCDB579175DB137CE#64, 0x7973EDF37DA60CF5#64, 0xD261131E17227702#64⟩ := by decide +kernel
/-- 3.9: `bytes(0..64)`, two blocks. -/
theorem test_tiger_two_blocks : tiger sboxMix ((List.range 65).map (BitVec.ofNat 8)) =
    ⟨0x9C9B4527487878E5#64, 0x75833836BF0B7102#64, 0x1BBD5191801C79D3#64⟩ := by decide +kernel
/-- W3, and the text of the empty message's digest (3.9). -/
theorem test_digest_text :
    digestText ⟨1#64, 0#64, 0xFFFFFFFFFFFFFFFF#64⟩ = "00000000000000010000000000000000ffffffffffffffff".toList ∧
    digestText iv = "0123456789abcdeffedcba9876543210f096a5b4c3b2e187".toList := by decide

/-! ## Witnesses: for each obligation, a state and operands that meet its hypotheses together, clause by clause -/

theorem witness_nopChangesNothing : cmdOf 0x30#64 = 0#4 := by decide

theorem witness_startBeginsHash :
    cmdOf 0x11#64 = 1#4 ∧ (fillT3.phase ≠ .idle ∧ fillT3.phase ≠ .done) ∧
    ((idleWith 0#64).phase = .idle ∧ (idleWith 0#64).msglen = 0#64) ∧ (doneState.phase = .done ∧ doneState.msglen = 0#64) ∧
    ((idleWith 1#64).phase = .idle ∧ (idleWith 1#64).msglen ≠ 0#64) ∧
    ((idleWith 64#64).phase = .idle ∧ (idleWith 64#64).msglen ≠ 0#64) := by decide

theorem witness_abortReturnsToIdle : cmdOf 0xFFFFFFFFFFFFFFF2#64 = 2#4 := by decide

theorem witness_clrerrClearsError : cmdOf 0x13#64 = 3#4 := by decide

theorem witness_reservedCommand : (4 ≤ (cmdOf 4#64).toNat ∧ (cmdOf 4#64).toNat < 8) ∧
    (4 ≤ (cmdOf 7#64).toNat ∧ (cmdOf 7#64).toNat < 8) ∧ 8 ≤ (cmdOf 8#64).toNat ∧ 8 ≤ (cmdOf 0xF#64).toNat := by decide

theorem witness_msglenWrite : (State.reset.phase = .idle ∨ State.reset.phase = .done) ∧
    (doneState.phase = .idle ∨ doneState.phase = .done) ∧ (fillT3.phase ≠ .idle ∧ fillT3.phase ≠ .done) := by decide

/-- The offsets where the reserved rows begin and end, for the writes and the reads. -/
theorem witness_reservedOffsets :
    ((0x40#8).toNat % 8 = 0 ∧ 0x40 ≤ (0x40#8).toNat ∧ (0x40#8).toNat < 0x80) ∧
    ((0x78#8).toNat % 8 = 0 ∧ 0x40 ≤ (0x78#8).toNat ∧ (0x78#8).toNat < 0x80) ∧
    ((0x80#8).toNat % 8 = 0 ∧ 0x80 ≤ (0x80#8).toNat) ∧ ((0xF8#8).toNat % 8 = 0 ∧ 0x80 ≤ (0xF8#8).toNat) := by decide

theorem witness_readOnlyWrite : Instr.wrRsvdHi 0xF8#8 ∈
    [Instr.wrStatus, .wrRemain, .wrDigestA, .wrDigestB, .wrDigestC, .wrRsvdLo 0xF8#8, .wrRsvdHi 0xF8#8] := by decide

theorem witness_dinDeliversByte : State.reset.phase ≠ .fill ∧
    ((inPhase .fill 0#7 64#64).fill.toNat ≤ 63 ∧ (inPhase .fill 0#7 64#64).phase = .fill) ∧
    ((inPhase .fill 63#7 1#64).fill.toNat ≤ 63 ∧ (inPhase .fill 63#7 1#64).phase = .fill) := by decide

theorem witness_dinFaultsBeyondBlock : (inPhase .fill 64#7 1#64).phase = .fill ∧
    64 ≤ (inPhase .fill 64#7 1#64).fill.toNat := by decide

theorem witness_digestReads : doneState.phase = .done ∧ State.reset.phase ≠ .done ∧
    Instr.rdDigestC ∈ [Instr.rdDigestA, .rdDigestB, .rdDigestC] := by decide

theorem witness_zeroReads : Instr.rdRsvdLo 0x78#8 ∈ [Instr.rdCtrl, .rdDin, .rdRsvdLo 0x78#8, .rdRsvdHi 0x78#8] := by decide

/-- The first and the last round of a pass, the first of the second and third, and each row of the role table. -/
theorem witness_roundUpdates :
    (((0, Instr.roundP0 0#3, 5#64) : Nat × Instr × Word) ∈
      [(0, .roundP0 0#3, 5#64), (1, .roundP1 0#3, 7#64), (2, .roundP2 0#3, 9#64)] ∧ (8 * 0 + (0#3).toNat) % 3 = 0) ∧
    (((0, Instr.roundP0 7#3, 5#64) : Nat × Instr × Word) ∈
      [(0, .roundP0 7#3, 5#64), (1, .roundP1 7#3, 7#64), (2, .roundP2 7#3, 9#64)] ∧ (8 * 0 + (7#3).toNat) % 3 = 1) ∧
    (((1, Instr.roundP1 0#3, 7#64) : Nat × Instr × Word) ∈
      [(0, .roundP0 0#3, 5#64), (1, .roundP1 0#3, 7#64), (2, .roundP2 0#3, 9#64)] ∧ (8 * 1 + (0#3).toNat) % 3 = 2) ∧
    (((2, Instr.roundP2 7#3, 9#64) : Nat × Instr × Word) ∈
      [(0, .roundP0 7#3, 5#64), (1, .roundP1 7#3, 7#64), (2, .roundP2 7#3, 9#64)] ∧ (8 * 2 + (7#3).toNat) % 3 = 2) := by
  decide

/-- The invariant holds at reset, in FILL and in DONE. -/
theorem inv_reset (es : List Event) : MachineInv { State.reset with events := es } :=
  ⟨(⟨rfl, rfl⟩ : 0#7 = 0#7 ∧ 0#64 = 0#64), (⟨rfl, rfl⟩ : 0#2 = 0#2 ∧ 0#3 = 0#3), (by decide : (0#4).toNat ≤ 5), le_refl _⟩

/-- A message of one byte begun, the byte the host's next access. -/
def oneByteLeft : State :=
  { inPhase .fill 63#7 1#64 with a := iv.a, b := iv.b, c := iv.c, msglen := 1#64, events := [wr .din 0x41#64] }

theorem inv_oneByteLeft : MachineInv oneByteLeft :=
  ⟨(by decide : (63#7).toNat ≤ 63 ∧ 64 ≤ (1#64).toNat + (63#7).toNat ∧ ((1#64).toNat + (63#7).toNat) % 64 = 0),
    (⟨rfl, rfl⟩ : 0#2 = 0#2 ∧ 0#3 = 0#3), (by decide : (0#4).toNat ≤ 5), le_refl _⟩

/-- DONE of the empty message, a NOP next. -/
def doneEmpty : State := { inPhase .done 0#7 0#64 with a := iv.a, b := iv.b, c := iv.c, events := [cmdNop] }

theorem inv_doneEmpty : MachineInv doneEmpty :=
  ⟨(⟨rfl, rfl⟩ : 0#7 = 0#7 ∧ 0#64 = 0#64), (⟨rfl, rfl⟩ : 0#2 = 0#2 ∧ 0#3 = 0#3), (by decide : (0#4).toNat ≤ 5), le_refl _⟩

theorem witness_reservedRoundFaults :
    let s := { inPhase .round 64#7 0#64 with pass := 3#2, errcode := 5#4 }
    (s.phase = .round ∧ s.pass = 3#2 ∧ s.errcode.toNat ≤ 5 ∧ s.events = []) ∧ MachineInv State.reset :=
  ⟨by decide, inv_reset []⟩

theorem witness_kschedSchedulesBuffer : (inPhase .ksched 64#7 0#64).pass.toNat ≤ 1 ∧
    ({ inPhase .ksched 64#7 0#64 with pass := 1#2 } : State).pass.toNat ≤ 1 := by decide

theorem witness_datapathNeverRaisesError :
    Instr.ffwd ∈ [Instr.load, .save, .roundP0 7#3, .roundP1 7#3, .roundP2 7#3, .ksched, .ffwd] := by decide

theorem witness_stepRuns : ErrorCodeOk { State.reset with errcode := 5#4 } ∧
    (decodeHost 0x1000000000000000001#73 = .ok .wrCtrlStart ∧ (State.reset.withEvents [cmdStart, .core]).events =
      .host ⟨.w64, 0x1000000000000000001#73⟩ :: [.core]) ∧
    (State.reset.withEvents [.core]).events = .core :: [] ∧ State.reset.events = [] ∧
    (State.reset.withEvents [.reset]).events = .reset :: [] := by decide

theorem witness_unadmitted : ErrorCodeOk State.reset ∧
    (State.reset.withEvents [.host ⟨.w32, request false 0x08#8 0#64⟩]).events =
      .host ⟨.w32, request false 0x08#8 0#64⟩ :: [] ∧ AccessWidth.w32 ≠ .w64 ∧
    (reqOff (request false 0xFF#8 0#64)).toNat % 8 ≠ 0 ∧ (reqOff (request false 0x01#8 0#64)).toNat % 8 ≠ 0 := by decide

theorem witness_admitted : MachineInv (State.reset.withEvents [rd (.rsvd 0xF8#8)]) ∧
    (State.reset.withEvents [rd (.rsvd 0xF8#8)]).events = .host ⟨.w64, request false 0xF8#8 0#64⟩ :: [] ∧
    (reqOff (request false 0xF8#8 0#64)).toNat % 8 = 0 := ⟨inv_reset _, rfl, by decide⟩

theorem witness_reservedErrorCode : 6 ≤ ({ State.reset with errcode := 6#4 } : State).errcode.toNat ∧
    6 ≤ ({ State.reset with errcode := 15#4 } : State).errcode.toNat ∧
    ∀ es, ({ State.reset with errcode := 6#4 } : State).events ≠ .reset :: es := ⟨by decide, by decide, fun _ h => by cases h⟩

theorem witness_resetClears : (fillT3.withEvents [.reset, .core]).events = .reset :: [.core] := rfl

theorem witness_oneTableRow : (reqOff (request true 0x00#8 0xF#64)).toNat % 8 = 0 ∧
    (reqOff (request false 0x78#8 0#64)).toNat % 8 = 0 ∧ (reqOff (request true 0x80#8 0#64)).toNat % 8 = 0 := by decide

theorem witness_ignoredBits : (0x11#64).extractLsb' 0 4 = (0xF1#64).extractLsb' 0 4 ∧
    (0x1FF#64).extractLsb' 0 8 = (0xFF#64).extractLsb' 0 8 := by decide

theorem witness_raiseError : State.reset.errcode = 0#4 ∧ ({ State.reset with errcode := 1#4 } : State).errcode ≠ 0#4 := by
  decide

theorem witness_errorCodesByCause : fillT3.errcode = 0#4 ∧
    exec .wrCtrlStart fillT3 = .next { fillT3 with errcode := 2#4 } ∧
    exec .wrStatus fillT3 = .next { fillT3 with errcode := 5#4 } := ⟨rfl, rfl, rfl⟩

theorem witness_recordedErrorIsSticky :
    let s := { fillT3 with errcode := 3#4, events := [cmdStart] }
    step s = .next { fillT3 with errcode := 3#4 } ∧ s.errcode ≠ 0#4 ∧ nextInstr s ≠ some .wrCtrlClrerr ∧
      ∀ es, s.events ≠ .reset :: es := ⟨rfl, by decide, by decide, fun _ h => by cases h⟩

theorem witness_erringTransaction : exec .wrStatus State.reset = .next { State.reset with errcode := 5#4 } ∧
    Instr.wrStatus ≠ .wrCtrlClrerr ∧ ({ State.reset with errcode := 5#4 } : State).errcode ≠ State.reset.errcode :=
  ⟨rfl, by decide, by decide⟩

/-- Each of the four kinds of register is written by some answered instruction. -/
theorem witness_onlyNamedInstructions :
    (∃ t, exec .wrCtrlStart State.reset = .next t ∧ t.a ≠ State.reset.a) ∧
    (∃ t, exec .save doneState = .next t ∧ t.aa ≠ doneState.aa) ∧
    (∃ t, exec .ksched State.reset = .next t ∧ t.x ≠ State.reset.x) ∧
    ∃ t, exec (.wrMsglen 1#64) State.reset = .next t ∧ t.msglen ≠ State.reset.msglen :=
  ⟨⟨_, rfl, by decide⟩, ⟨_, rfl, by decide⟩, ⟨_, rfl, by decide⟩, ⟨_, rfl, by decide⟩⟩

/-- An accepted byte at its index and beside it, an accepted `START` at the end of its prefix, and a byte dropped. -/
theorem witness_blockBufferFrame :
    (∃ t, exec (.wrDin 0x41#8) oneByteLeft = .next t ∧ readBlk t 63 = 0x41#8 ∧ readBlk t 62 = 0#8) ∧
    (∃ t, exec .wrCtrlStart { idleWith 63#64 with blk := Vector.replicate 64 1#8 } = .next t ∧ readBlk t 0 = 0#8 ∧
      readBlk t 1 = 1#8) ∧
    ∃ t, exec (.wrDin 0x41#8) State.reset = .next t ∧ readBlk t 0 = 0#8 :=
  ⟨⟨_, rfl, by decide⟩, ⟨_, rfl, by decide⟩, ⟨_, rfl, by decide⟩⟩

theorem witness_reads : isRead .rdDigestA = true ∧ isRead (.rdRsvdHi 0xF8#8) = true := by decide

theorem witness_onlyAbortDisturbs : isHostTransaction (.wrDin 0#8) = true ∧ Instr.wrDin 0#8 ≠ .wrCtrlAbort ∧
    (inPhase .load 64#7 0#64).phase ∈ [Phase.load, .save, .round, .ksched, .ffwd] ∧
    (inPhase .ffwd 64#7 0#64).phase ∈ [Phase.load, .save, .round, .ksched, .ffwd] ∧
    exec (.wrDin 0#8) (inPhase .load 64#7 0#64) = .next { inPhase .load 64#7 0#64 with errcode := 3#4 } :=
  ⟨by decide, by decide, by decide, by decide, rfl⟩

theorem witness_digestStable :
    let s := doneState.withEvents [wr .msglen 5#64]
    s.phase = .done ∧ step s = .next { doneState with msglen := 5#64 } ∧ nextInstr s ≠ some .wrCtrlStart ∧
      nextInstr s ≠ some .wrCtrlAbort ∧ ∀ es, s.events ≠ .reset :: es :=
  ⟨rfl, rfl, by decide, by decide, fun _ h => by cases h⟩

/-- A step that enters LOAD, and one that goes back to FILL. -/
theorem witness_blocksInOrder :
    (∃ t, step oneByteLeft = .next t ∧ t.phase = .load ∧ oneByteLeft.phase ≠ .load) ∧
    ∃ t, step (inFfwd 64#64 iv iv) = .next t ∧ t.phase = .fill ∧
      (inFfwd 64#64 iv iv).phase ∈ [Phase.load, .save, .round, .ksched, .ffwd] :=
  ⟨⟨_, rfl, rfl, by decide⟩, ⟨_, rfl, rfl, by decide⟩⟩

theorem witness_stepKeepsInvariant : MachineInv oneByteLeft ∧ ∃ t, step oneByteLeft = .next t :=
  ⟨inv_oneByteLeft, _, rfl⟩

/-- Two states in FILL that agree below `FILL` and differ in every datapath register not read any more. -/
theorem witness_unwrittenRegisters :
    let t : State := { oneByteLeft with aa := 7#64, bb := 7#64, cc := 7#64, x := Vector.replicate 8 7#64,
                                        blk := oneByteLeft.blk.set 63 7#8 }
    SameControl oneByteLeft t ∧ SameLive oneByteLeft t ∧ ∃ s', step oneByteLeft = .next s' :=
  ⟨⟨rfl, rfl, rfl, rfl, rfl, rfl, rfl, rfl, rfl, rfl⟩,
    ⟨rfl, (by decide : ∀ j : Fin 64, j.val < 63 →
      readBlk oneByteLeft j = readBlk { oneByteLeft with blk := oneByteLeft.blk.set 63 7#8 } j)⟩, _, rfl⟩

theorem witness_intermediateStateIsHidden : isHostTransaction .rdDigestA = true ∧
    SameControl fillT3 { fillT3 with a := 7#64 } ∧ fillT3.phase ≠ .done ∧
    exec .rdDigestA fillT3 = .next { fillT3 with returned := [Config.freeWord 0], draws := 1 } :=
  ⟨rfl, ⟨rfl, rfl, rfl, rfl, rfl, rfl, rfl, rfl, rfl, rfl⟩, by decide, rfl⟩

theorem witness_leadingZero : [0x61#8, 0x62#8, 0x63#8].length % 64 ≠ 0 ∧ (List.replicate 63 0x61#8).length % 64 ≠ 0 := by
  decide

theorem witness_padding : 64 % 64 = 0 ∧ [0x61#8].length ≤ 64 := by decide

theorem witness_blockOf29Steps : ErrorCodeOk (inPhase .load 64#7 0#64) ∧ (inPhase .load 64#7 0#64).phase = .load ∧
    (inPhase .load 64#7 0#64).events = [] := by decide

/-- The third clause, in DONE: a step that changes no message. -/
theorem witness_hashProgress_done : MachineInv doneEmpty ∧ HashProgress Config.sboxRom 0 [] doneEmpty ∧
    step doneEmpty = .next (doneEmpty.withEvents []) ∧
    (∀ b, ¬(nextInstr doneEmpty = some (.wrDin b) ∧ doneEmpty.phase = .fill)) ∧
    ¬(nextInstr doneEmpty = some .wrCtrlStart ∧ (doneEmpty.phase = .idle ∨ doneEmpty.phase = .done)) :=
  ⟨inv_doneEmpty, (⟨rfl, rfl⟩ : 0 = 0 ∧ iv = tiger Config.sboxRom []), rfl, fun _ h => absurd h.2 (by decide), by decide⟩

/-- The second clause: an accepted `START`. -/
theorem witness_hashProgress_start :
    let s := { State.reset with msglen := 3#64, events := [cmdStart] }
    MachineInv s ∧ HashProgress Config.sboxRom 0 [] s ∧ (∃ t, step s = .next t) ∧ nextInstr s = some .wrCtrlStart ∧
      (s.phase = .idle ∨ s.phase = .done) :=
  ⟨⟨(⟨rfl, rfl⟩ : 0#7 = 0#7 ∧ 0#64 = 0#64), (⟨rfl, rfl⟩ : 0#2 = 0#2 ∧ 0#3 = 0#3), (by decide : (0#4).toNat ≤ 5),
    (by decide : (0#64).toNat ≤ (3#64).toNat)⟩, trivial, ⟨_, rfl⟩, rfl, .inl rfl⟩

/-- The first clause: the last byte of a block accepted. -/
theorem witness_hashProgress_din : MachineInv oneByteLeft ∧ HashProgress Config.sboxRom 1 [] oneByteLeft ∧
    (∃ t, step oneByteLeft = .next t) ∧ nextInstr oneByteLeft = some (.wrDin 0x41#8) ∧ oneByteLeft.phase = .fill :=
  ⟨inv_oneByteLeft,
    (⟨rfl, rfl, rfl, (by decide : ∀ j : Fin 64, j.val < (63#7).toNat →
        readBlk oneByteLeft j = (paddedSoFar 1 []).getD (64 * 0 + j.val) 0#8)⟩ :
      [].length + (1#64).toNat = 1 ∧ (63#7).toNat = (paddedSoFar 1 []).length % 64 ∧
        runningOf oneByteLeft = chain Config.sboxRom (paddedSoFar 1 []) 0 ∧ ∀ j : Fin 64, j.val < (63#7).toNat →
        readBlk oneByteLeft j = (paddedSoFar 1 []).getD (64 * 0 + j.val) 0#8), ⟨_, rfl⟩, rfl, rfl⟩

theorem witness_hashOfEveryMessage :
    (MachineInv { State.reset with events := hashEvents [] } ∧ [].length (α := Byte) < 2 ^ 64) ∧
    MachineInv { State.reset with events := hashEvents [0x61#8, 0x62#8, 0x63#8] } ∧
    [0x61#8, 0x62#8, 0x63#8].length < 2 ^ 64 ∧ State.reset.phase = .idle ∧ State.reset.errcode = 0#4 :=
  ⟨⟨inv_reset _, by decide⟩, inv_reset _, by decide, rfl, rfl⟩

/-! ## The step through the host's placement of a word -/

/-- `withFetchWord` runs a bus request as the first instruction after reset, and a micro-op word (log 3). -/
theorem test_withFetchWord : step (State.reset.withFetchWord 80 0x1100000000000000041) = exec (.wrMsglen 65#64) State.reset ∧
    step (State.reset.withFetchWord 8 0x60) = exec .save { State.reset with phase := .save } := ⟨rfl, rfl⟩

end Sys2Proof.Tests
end

namespace Sys2Proof.Machine

/-! # What a step can do, and what every step keeps

`HostEffect`, `CoreEffect` and `StepEffect` say once, as equivalences with `exec` and `step`, what a host transaction, a
micro-op and a step can do. The invariant (R26), the writers of each register (R17 to R31) and the two
noninterference statements (R37, R38) are read off them. -/

/-! ## The transactions of HOST -/

/-- The error a transaction records in a state, if it records one (R103, R106 to R108, R73). -/
def raisedBy (s : State) : Instr → Option ErrCode
  | .wrCtrlRsvdLo _ | .wrCtrlRsvdHi _ => some .badCmd
  | .wrStatus | .wrRemain | .wrDigestA | .wrDigestB | .wrDigestC | .wrRsvdLo _ | .wrRsvdHi _ => some .badWrite
  | .wrCtrlStart => if busy s then some .startBusy else none
  | .wrMsglen _ => if busy s then some .msglenBusy else none
  | .wrDin _ => if s.phase = .fill then none else some .dinNotReady
  | _ => none

/-- The control-state value a read other than a digest read returns (R109 to R111, R115). -/
def answerOf : Instr → Option (State → Word)
  | .rdCtrl | .rdDin | .rdRsvdLo _ | .rdRsvdHi _ => some fun _ => 0#64
  | .rdStatus => some statusWord
  | .rdMsglen => some State.msglen
  | .rdRemain => some State.rem
  | _ => none

/-- The word of the running state that a digest read names (R112 to R114). -/
def digestOf : Instr → Option (Triple → Word)
  | .rdDigestA => some Triple.a
  | .rdDigestB => some Triple.b
  | .rdDigestC => some Triple.c
  | _ => none

/-- `HostEffect s i t`: the host transaction `i` answers in `s` with the next state `t` (45_host_interface.md). -/
inductive HostEffect (s : State) : Instr → State → Prop
  | nop : HostEffect s .wrCtrlNop s
  | start (hb : busy s = false) : HostEffect s .wrCtrlStart (startHash s)
  | abort : HostEffect s .wrCtrlAbort ((s.withCounts 0#7 0#64).withPhase .idle |>.withPass 0#2 |>.withRound 0#3)
  | clrerr : HostEffect s .wrCtrlClrerr (clearError s)
  | setLength (len : Word) (hb : busy s = false) : HostEffect s (.wrMsglen len) (s.withMsglen len)
  | accept (b : Byte) (j : Fin 64) (hj : j.val = s.fill.toNat) (hp : s.phase = .fill) :
      HostEffect s (.wrDin b) (acceptByte j b s)
  | raise {i : Instr} (k : ErrCode) (hk : raisedBy s i = some k) : HostEffect s i (raiseError k s)
  | answer {i : Instr} (f : State → Word) (hf : answerOf i = some f) : HostEffect s i (returnToHost (f s) s)
  | digest {i : Instr} (f : Triple → Word) (hf : digestOf i = some f) :
      HostEffect s i (returnDigestWord (f (runningOf s)) s)

theorem exec_of_raisedBy {s : State} {i : Instr} {k : ErrCode} (h : raisedBy s i = some k) :
    exec i s = .next (raiseError k s) := by
  cases i
  case wrCtrlStart =>
    obtain ⟨hb, rfl⟩ : busy s = true ∧ .startBusy = k := by simpa [raisedBy] using h
    simp [exec, execWrCtrlStart, hb]
  case wrMsglen len =>
    obtain ⟨hb, rfl⟩ : busy s = true ∧ .msglenBusy = k := by simpa [raisedBy] using h
    simp [exec, execWrMsglen, hb]
  case wrDin b =>
    obtain ⟨hp, rfl⟩ : s.phase ≠ .fill ∧ .dinNotReady = k := by simpa [raisedBy] using h
    simp [exec, execWrDin, hp]
  all_goals cases h <;> rfl

theorem exec_of_answerOf {i : Instr} {f : State → Word} (h : answerOf i = some f) (s : State) :
    exec i s = .next (returnToHost (f s) s) := by
  cases i <;> cases h <;> rfl

theorem exec_of_digestOf {i : Instr} {f : Triple → Word} (h : digestOf i = some f) (s : State) :
    exec i s = .next (returnDigestWord (f (runningOf s)) s) := by
  cases i <;> cases h <;> rfl

/-- Whatever a host transaction answers is one of its effects (R102 to R115). -/
theorem hostEffect_of_exec {s t : State} {i : Instr} (hi : isHostTransaction i = true) (h : exec i s = .next t) :
    HostEffect s i t := by
  cases i
  case waitIdle | waitFill | load | save | roundP0 | roundP1 | roundP2 | roundRsvd | ksched | ffwd | waitDone => cases hi
  case wrCtrlNop => cases h; exact .nop
  case wrCtrlAbort => cases h; exact .abort
  case wrCtrlClrerr => cases h; exact .clrerr
  case wrCtrlStart =>
    cases hb : busy s <;> simp only [exec, execWrCtrlStart, hb] at h <;> cases h
    · exact .start hb
    · exact .raise _ (by simp [raisedBy, hb])
  case wrMsglen len =>
    cases hb : busy s <;> simp only [exec, execWrMsglen, hb] at h <;> cases h
    · exact .setLength len hb
    · exact .raise _ (by simp [raisedBy, hb])
  case wrDin b =>
    rcases execWrDin_cases h with ⟨hj, hp, rfl⟩ | ⟨hp, rfl⟩
    · exact .accept b _ rfl hp
    · exact .raise _ (by simp [raisedBy, hp])
  case rdCtrl | rdDin | rdRsvdLo | rdRsvdHi => cases h; exact .answer (fun _ => 0#64) rfl
  case rdStatus => cases h; exact .answer statusWord rfl
  case rdMsglen => cases h; exact .answer State.msglen rfl
  case rdRemain => cases h; exact .answer State.rem rfl
  case rdDigestA => cases h; exact .digest Triple.a rfl
  case rdDigestB => cases h; exact .digest Triple.b rfl
  case rdDigestC => cases h; exact .digest Triple.c rfl
  case wrCtrlRsvdLo | wrCtrlRsvdHi | wrStatus | wrRemain | wrDigestA | wrDigestB | wrDigestC | wrRsvdLo | wrRsvdHi =>
    cases h; exact .raise _ rfl

/-- Every effect is what the transaction answers: the converse of `hostEffect_of_exec`. -/
theorem HostEffect.exec_eq {s t : State} {i : Instr} (h : HostEffect s i t) : exec i s = .next t := by
  cases h with
  | nop | abort | clrerr => rfl
  | start hb => simp [exec, execWrCtrlStart, hb]
  | setLength len hb => simp [exec, execWrMsglen, hb]
  | accept b j hj hp => simp [exec, execWrDin, hp, ← hj]
  | raise k hk => exact exec_of_raisedBy hk
  | answer f hf => exact exec_of_answerOf hf s
  | digest f hf => exact exec_of_digestOf hf s

/-! ## The micro-ops of CORE -/

/-- `CoreEffect s t`: CORE's micro-op at `uop` takes `s` to `t` (R76, R77, R84, R90, R93, R94). -/
inductive CoreEffect (s : State) : State → Prop
  | wait (hp : s.phase = .idle ∨ s.phase = .fill ∨ s.phase = .done) : CoreEffect s s
  | load (hp : s.phase = .load) : CoreEffect s ((s.withX (loadblk s.blk)).withPhase .save)
  | save (hp : s.phase = .save) :
      CoreEffect s ((s.withSnapshot (runningOf s)).withPass 0#2 |>.withRound 0#3 |>.withPhase .round)
  | round (p : PassIx) (hp : s.phase = .round) (hpass : s.pass.toNat = passNat p) :
      CoreEffect s (runRound p s.round s)
  | ksched (hp : s.phase = .ksched) :
      CoreEffect s ((s.withX (ks s.x)).withPass (s.pass + 1#2) |>.withPhase .round)
  | ffwd (hp : s.phase = .ffwd) :
      CoreEffect s ((s.withRunning (ffwdOn (runningOf s) (snapshotOf s))).withPass 0#2 |>.withRound 0#3
        |>.withCounts 0#7 s.rem |>.withPhase (if s.rem = 0#64 then .done else .fill))

/-- `PASS` counts a pass, or is the reserved 3 (R22, R80). -/
theorem pass_cases (q : BitVec 2) : (∃ p, q.toNat = passNat p) ∨ q = 3#2 := by
  rcases (by omega : q.toNat = 0 ∨ q.toNat = 1 ∨ q.toNat = 2 ∨ q.toNat = 3) with h | h | h | h
  exacts [.inl ⟨.p0, h⟩, .inl ⟨.p1, h⟩, .inl ⟨.p2, h⟩, .inr (BitVec.eq_of_toNat_eq h)]

/-- Whatever CORE's micro-op answers is one of its effects (R94). -/
theorem coreEffect_of_exec {s t : State} (h : exec (decodeUop (uopOf s)) s = .next t) : CoreEffect s t := by
  cases hp : s.phase with
  | round =>
    rcases pass_cases s.pass with ⟨p, hpass⟩ | hpass
    · rw [exec_round hp hpass] at h
      cases h
      exact .round p hp hpass
    · simp only [decodeUop_uopOf, hp, hpass] at h
      cases h
  | load => rw [decodeUop_uopOf, hp] at h; cases h; exact .load hp
  | save => rw [decodeUop_uopOf, hp] at h; cases h; exact .save hp
  | ksched => rw [decodeUop_uopOf, hp] at h; cases h; exact .ksched hp
  | ffwd => rw [decodeUop_uopOf, hp] at h; cases h; exact .ffwd hp
  | idle | fill | done => rw [decodeUop_uopOf, hp] at h; cases h; exact .wait (by simp [hp])

/-- Every effect is what CORE's micro-op answers: the converse of `coreEffect_of_exec`. -/
theorem CoreEffect.exec_eq {s t : State} (h : CoreEffect s t) : exec (decodeUop (uopOf s)) s = .next t := by
  cases h with
  | wait hp => rcases hp with hp | hp | hp <;> rw [decodeUop_uopOf, hp] <;> rfl
  | round p hp hpass => exact exec_round hp hpass
  | load hp | save hp | ksched hp | ffwd hp => rw [decodeUop_uopOf, hp]; rfl

/-! ## The step -/

/-- `StepEffect s t`: the next event takes `s` to `t` (R46, R50, R131). -/
inductive StepEffect (s t : State) : Prop
  | core (es : List Event) (hev : s.events = [] ∧ es = [] ∨ s.events = .core :: es)
      (he : errorCodeReserved s.errcode = false) (h : CoreEffect (s.withEvents es) t)
  | host (acc : HostAccess) (es : List Event) (i : Instr) (hev : s.events = .host acc :: es)
      (he : errorCodeReserved s.errcode = false) (hw : acc.width = .w64) (hd : decodeHost acc.req = .ok i)
      (h : HostEffect (s.withEvents es) i t)
  | reset (es : List Event) (hev : s.events = .reset :: es) (h : t = resetCore (s.withEvents es))

theorem State.withEvents_self {s : State} {es : List Event} (h : s.events = es) : s.withEvents es = s := by
  subst h; rfl

/-- Everything a step can do, event by event. -/
theorem step_iff {s t : State} : step s = .next t ↔ StepEffect s t := by
  constructor
  · intro h
    rcases step_cases h with ⟨hev, he, h⟩ | ⟨es, hev, he, h⟩ | ⟨acc, es, i, hev, he, hw, hd, h⟩ | ⟨es, hev, h⟩
    · exact .core [] (.inl ⟨hev, rfl⟩) he (coreEffect_of_exec (by rwa [State.withEvents_self hev]))
    · exact .core es (.inr hev) he (coreEffect_of_exec h)
    · exact .host acc es i hev he hw hd (hostEffect_of_exec (decodeHost_isHostTransaction hd) h)
    · exact .reset es hev h
  · rintro (⟨es, ⟨hev, rfl⟩ | hev, he, h⟩ | ⟨acc, es, i, hev, he, hw, hd, h⟩ | ⟨es, hev, rfl⟩)
    · rw [State.withEvents_self hev] at h
      simpa [step, fetch, hev, guardErrorCode, he, fetchCore] using h.exec_eq
    · simpa [step, fetch, hev, guardErrorCode, he, fetchCore] using h.exec_eq
    · simpa [step, fetch, hev, guardErrorCode, he, fetchHost, hw, hd] using h.exec_eq
    · simp [step, fetch, hev]

/-! ## The invariant -/

/-- The invariant is about the sequencer, the counters, `ERRCODE` and `MSGLEN` only; where the first two stay, the other
two remain to be checked. -/
theorem MachineInv.of_kept {s t : State} (h : MachineInv s) (hphase : t.phase = s.phase) (hpass : t.pass = s.pass)
    (hround : t.round = s.round) (hfill : t.fill = s.fill) (hrem : t.rem = s.rem) (he : ErrorCodeOk t)
    (hl : LengthOk t) : MachineInv t := by
  obtain ⟨hc, hs, -, -⟩ := h
  exact ⟨by simpa only [CountersOk, hphase, hfill, hrem] using hc,
    by simpa only [SequencerOk, hphase, hpass, hround] using hs, he, hl⟩

/-- After a reset, whatever is pending (R131). -/
theorem machineInv_resetCore (s : State) : MachineInv (resetCore s) := by
  simp [MachineInv, CountersOk, SequencerOk, ErrorCodeOk, LengthOk, State.reset]

/-- Between hashes the counters are 0 (R26). -/
theorem MachineInv.counters_of_not_busy {s : State} (h : MachineInv s) (hb : busy s = false) :
    s.fill = 0#7 ∧ s.rem = 0#64 := by
  obtain ⟨hc, -⟩ := h
  cases hp : s.phase <;> simp [CountersOk, busy, hp] at hc hb ⊢ <;> exact hc

/-- Recording an error keeps `ERRCODE` within the codes produced (R117, R118). -/
theorem errorCodeOk_raiseError (k : ErrCode) {s : State} (h : ErrorCodeOk s) : ErrorCodeOk (raiseError k s) := by
  have hk : (errorCode k).toNat ≤ 5 := by cases k <;> decide
  rw [ErrorCodeOk, raiseError_errcode]
  split
  exacts [hk, h]

/-- An accepted `START` establishes the invariants of its phase: the bytes to come and the zero bytes already in the block
make whole blocks (R69, R103). -/
theorem machineInv_startHash {s : State} (he : ErrorCodeOk s) : MachineInv (startHash s) := by
  obtain ⟨-, hrem, hpass, hround, -, -, hlen, herr, -⟩ := startHash_frame s
  have he' : ErrorCodeOk (startHash s) := by rwa [ErrorCodeOk, herr]
  have hl : LengthOk (startHash s) := by rw [LengthOk, hrem, hlen]
  rcases startHash_cases s with ⟨h0, hp, hfill, -⟩ | ⟨h0, hp, hfill, -⟩
  · refine ⟨?_, ?_, he', hl⟩
    · simp only [CountersOk, hp, hfill, hrem, h0, and_self]
    · simp only [SequencerOk, hp, hpass, hround, and_self]
  · refine ⟨?_, ?_, he', hl⟩
    · have hpos : s.msglen.toNat ≠ 0 := fun h => h0 (BitVec.eq_of_toNat_eq h)
      simp only [CountersOk, hp, hfill, hrem, padLen, BitVec.toNat_ofNat]
      omega
    · simp only [SequencerOk, hp, hpass, hround, and_self]

/-- An accepted byte moves one unit from `REM` to `FILL`, and a full block goes to LOAD (R73). -/
theorem machineInv_acceptByte {s : State} (h : MachineInv s) (hp : s.phase = .fill) (j : Fin 64) (b : Byte) :
    MachineInv (acceptByte j b s) := by
  obtain ⟨hc, hs, he, hl⟩ := h
  obtain ⟨-, hfill, hrem, hphase⟩ := acceptByte_spec j b s
  obtain ⟨-, -, -, hlen, hpass, hround, herr, -⟩ := acceptByte_frame j b s
  simp only [CountersOk, SequencerOk, hp] at hc hs
  simp only [LengthOk] at hl
  have hfill' : (s.fill + 1#7).toNat = s.fill.toNat + 1 := by bv_omega
  have hrem' : (s.rem - 1#64).toNat = s.rem.toNat - 1 := by bv_omega
  refine ⟨?_, ?_, by rwa [ErrorCodeOk, herr], by rw [LengthOk, hrem, hlen, hrem']; omega⟩
  · by_cases hfull : s.fill + 1#7 = 64#7
    · rw [if_pos hfull] at hphase
      have h64 : s.fill.toNat + 1 = 64 := by rw [← hfill', hfull]; rfl
      simp only [CountersOk, hphase, hfill, hrem, hrem']
      exact ⟨hfull, by omega⟩
    · rw [if_neg hfull, hp] at hphase
      have h64 : s.fill.toNat + 1 ≠ 64 := fun e => hfull (BitVec.eq_of_toNat_eq (hfill'.trans e))
      simp only [CountersOk, hphase, hfill, hrem, hfill', hrem']
      omega
  · by_cases hfull : s.fill + 1#7 = 64#7 <;>
      simpa only [SequencerOk, hphase, hp, hfull, if_true, if_false, hpass, hround] using hs

/-- Every host transaction keeps the invariant. -/
theorem HostEffect.machineInv {s t : State} {i : Instr} (h : HostEffect s i t) (hs : MachineInv s) : MachineInv t := by
  have ⟨_, _, he, hl⟩ := hs
  cases h with
  | nop => exact hs
  | start => exact machineInv_startHash he
  | abort => simpa [MachineInv, CountersOk, SequencerOk] using he
  | clrerr => exact hs.of_kept rfl rfl rfl rfl rfl (by simp [ErrorCodeOk]) hl
  | setLength len hb =>
    exact hs.of_kept rfl rfl rfl rfl rfl he (by simp [LengthOk, (hs.counters_of_not_busy hb).2])
  | accept b j _ hp => exact machineInv_acceptByte hs hp j b
  | raise k => exact hs.of_kept (by simp) (by simp) (by simp) (by simp) (by simp) (errorCodeOk_raiseError k he) (by simpa)
  | answer => exact hs
  | digest f =>
    rcases returnDigestWord_eq (f (runningOf s)) s with ⟨-, e⟩ | ⟨-, e⟩ <;> rw [e] <;> exact hs

/-- A round counts up within its pass, and the last one of a pass hands over to the phase its `PASS` allows (R84). -/
theorem machineInv_runRound {s : State} {p : PassIx} (h : MachineInv s) (hp : s.phase = .round)
    (hpass : s.pass.toNat = passNat p) : MachineInv (runRound p s.round s) := by
  obtain ⟨hc, hs, he, hl⟩ := h
  obtain ⟨-, hround, hphase⟩ := runRound_spec p s.round s
  obtain ⟨-, -, -, hfill, hrem, hlen, hpass', herr, -⟩ := runRound_frame p s.round s
  simp only [CountersOk, SequencerOk, hp] at hc hs
  refine ⟨?_, ?_, by rwa [ErrorCodeOk, herr], by rwa [LengthOk, hrem, hlen]⟩
  · by_cases hlast : s.round.toNat < 7
    · rw [if_pos hlast, hp] at hphase
      simpa only [CountersOk, hphase, hfill, hrem] using hc
    · rw [if_neg hlast] at hphase
      cases p <;> simpa only [CountersOk, hphase, phaseAfterPass, hfill, hrem] using hc
  · by_cases hlast : s.round.toNat < 7
    · rw [if_pos hlast, hp] at hphase
      simpa only [SequencerOk, hphase, hpass'] using hs
    · rw [if_neg hlast] at hphase hround
      simp only [SequencerOk, hphase, hround, hpass']
      cases p with
      | p0 | p1 => simp [phaseAfterPass, hpass, passNat]
      | p2 => exact ⟨BitVec.eq_of_toNat_eq hpass, trivial⟩

/-- Every step of CORE keeps the invariant. -/
theorem CoreEffect.machineInv {s t : State} (h : CoreEffect s t) (hs : MachineInv s) : MachineInv t := by
  obtain ⟨hc, hq, he, hl⟩ := hs
  cases h with
  | wait => exact ⟨hc, hq, he, hl⟩
  | load hp | save hp => simp_all [MachineInv, CountersOk, SequencerOk]
  | round p hp hpass => exact machineInv_runRound ⟨hc, hq, he, hl⟩ hp hpass
  | ksched hp =>
    simp only [CountersOk, SequencerOk, hp] at hc hq
    have hpass : (s.pass + 1#2).toNat ≤ 2 := by bv_omega
    exact ⟨hc, hpass, he, hl⟩
  | ffwd hp =>
    simp only [CountersOk, SequencerOk, hp] at hc hq
    by_cases h0 : s.rem = 0#64
    · simp [MachineInv, CountersOk, SequencerOk, h0, he]
    · have hpos : s.rem.toNat ≠ 0 := fun h => h0 (BitVec.eq_of_toNat_eq h)
      simp [MachineInv, CountersOk, SequencerOk, h0]
      omega

/-- Every step keeps the invariant, event by event. -/
theorem StepEffect.machineInv {s t : State} (h : StepEffect s t) (hs : MachineInv s) : MachineInv t := by
  rcases h with ⟨_, _, _, h⟩ | ⟨_, _, _, _, _, _, _, h⟩ | ⟨_, _, rfl⟩
  · exact h.machineInv hs
  · exact h.machineInv hs
  · exact machineInv_resetCore _

/-- Settles O44: the reset state with pending events is what a reset leaves of a state with those events. -/
theorem invariantHoldsAtReset : Obligations.InvariantHoldsAtReset := fun es =>
  machineInv_resetCore (State.reset.withEvents es)

/-- Settles O45, by the event taken and then the effects of its instruction. -/
theorem stepKeepsInvariant : Obligations.StepKeepsInvariant := fun _ _ hs h =>
  (step_iff.1 h).machineInv hs

/-! ## Who writes which register -/

theorem runningOf_eq_iff {s t : State} : runningOf t = runningOf s ↔ t.a = s.a ∧ t.b = s.b ∧ t.c = s.c := by
  simp [runningOf]

theorem snapshotOf_eq_iff {s t : State} : snapshotOf t = snapshotOf s ↔ t.aa = s.aa ∧ t.bb = s.bb ∧ t.cc = s.cc := by
  simp [snapshotOf]

/-- Settles O38. A host transaction's effect names its register; a micro-op's is read off its meaning. -/
theorem onlyNamedInstructionsWriteRegisters : Obligations.OnlyNamedInstructionsWriteRegisters := by
  intro i s t h
  cases hi : isHostTransaction i
  case true =>
    cases hostEffect_of_exec hi h with
    | nop | abort | clrerr | setLength | raise | answer => simp
    | start =>
      obtain ⟨-, -, -, -, hsnap, hx, hlen, -⟩ := startHash_frame s
      simp [hx, hlen, snapshotOf_eq_iff.1 hsnap]
    | accept b j =>
      obtain ⟨hrun, hsnap, hx, hlen, -⟩ := acceptByte_frame j b s
      simp [hx, hlen, runningOf_eq_iff.1 hrun, snapshotOf_eq_iff.1 hsnap]
    | digest f => rcases returnDigestWord_eq (f (runningOf s)) s with ⟨-, e⟩ | ⟨-, e⟩ <;> simp [e]
  case false =>
    have hround (p : PassIx) (k : BitVec 3) := runRound_frame p k s
    simp only [snapshotOf_eq_iff] at hround
    cases i
    case roundP0 k | roundP1 k | roundP2 k => cases h; simp [hround]
    case roundRsvd => cases h
    case waitIdle | waitFill | waitDone | load | save | ksched | ffwd => cases h; simp
    all_goals cases hi

/-! ## Two states that agree in the control state: one rule per operation -/

section
variable {s t : State}

theorem SameControl.withEvents (h : SameControl s t) (es : List Event) :
    SameControl (s.withEvents es) (t.withEvents es) := by
  obtain ⟨hfill, hrem, hlen, hphase, hpass, hround, herr, -, hret, hdraws⟩ := h
  exact ⟨hfill, hrem, hlen, hphase, hpass, hround, herr, rfl, hret, hdraws⟩

theorem SameControl.resetCore (h : SameControl s t) : SameControl (resetCore s) (resetCore t) := by
  obtain ⟨-, -, -, -, -, -, -, hev, hret, hdraws⟩ := h
  exact ⟨rfl, rfl, rfl, rfl, rfl, rfl, rfl, hev, hret, hdraws⟩

theorem SameControl.raiseError (h : SameControl s t) (k : ErrCode) : SameControl (raiseError k s) (raiseError k t) := by
  obtain ⟨hfill, hrem, hlen, hphase, hpass, hround, herr, hev, hret, hdraws⟩ := h
  simp [SameControl, raiseError_errcode, *]

theorem SameControl.returnToHost (h : SameControl s t) (v : Word) :
    SameControl (returnToHost v s) (returnToHost v t) := by
  obtain ⟨hfill, hrem, hlen, hphase, hpass, hround, herr, hev, hret, hdraws⟩ := h
  simp [SameControl, *]

theorem SameControl.returnDraw (h : SameControl s t) : SameControl (returnDraw s) (returnDraw t) := by
  obtain ⟨hfill, hrem, hlen, hphase, hpass, hround, herr, hev, hret, hdraws⟩ := h
  simp [SameControl, *]

theorem SameControl.startHash (h : SameControl s t) : SameControl (startHash s) (startHash t) := by
  obtain ⟨-, -, hlen, -, -, -, herr, hev, hret, hdraws⟩ := h
  unfold Machine.startHash
  simp only [hlen]
  split <;> simp [SameControl, *]

theorem SameControl.acceptByte (h : SameControl s t) (j : Fin 64) (b : Byte) :
    SameControl (acceptByte j b s) (acceptByte j b t) := by
  obtain ⟨hfill, hrem, hlen, hphase, hpass, hround, herr, hev, hret, hdraws⟩ := h
  unfold Machine.acceptByte
  simp only [hfill]
  split <;> simp [SameControl, *]

theorem SameControl.runRound (h : SameControl s t) (p : PassIx) (i : BitVec 3) :
    SameControl (runRound p i s) (runRound p i t) := by
  obtain ⟨hfill, hrem, hlen, hphase, hpass, hround, herr, hev, hret, hdraws⟩ := h
  unfold Machine.runRound advanceRound
  split <;> simp [SameControl, *]

/-- A digest read shows the running state in DONE only (R34, R112). -/
theorem SameControl.returnDigestWord (h : SameControl s t) (hr : s.phase = .done → runningOf s = runningOf t)
    (f : Triple → Word) :
    SameControl (returnDigestWord (f (runningOf s)) s) (returnDigestWord (f (runningOf t)) t) := by
  have ⟨_, _, _, hphase, _⟩ := h
  by_cases hd : s.phase = .done
  · simpa only [Machine.returnDigestWord, ← hphase, hd, if_true, hr hd] using h.returnToHost _
  · simpa only [Machine.returnDigestWord, ← hphase, hd, if_false] using h.returnDraw

/-- Which error a transaction records is a matter of the phase alone. -/
theorem raisedBy_congr (h : SameControl s t) (i : Instr) : raisedBy s i = raisedBy t i := by
  obtain ⟨-, -, -, hphase, -⟩ := h
  have hbusy : busy s = busy t := by simp only [busy, hphase]
  cases i <;> simp only [raisedBy, hbusy, hphase]

/-- Every read but a digest read shows the control state only (R30, R110, R111). -/
theorem answerOf_congr (h : SameControl s t) {i : Instr} {f : State → Word} (hf : answerOf i = some f) : f s = f t := by
  obtain ⟨hfill, hrem, hlen, hphase, hpass, hround, herr, -⟩ := h
  cases i <;> cases hf
  case rdStatus => simp only [statusWord, errFlag, needData, doneFlag, busy, hfill, hphase, hpass, hround, herr]
  case rdMsglen => exact hlen
  case rdRemain => exact hrem
  all_goals rfl

end

/-! ## Two states that agree in the registers still to be read -/

/-- `t` holds the phase, the fill count and the datapath of `s`: all that `SameLive` looks at. -/
def KeepsLive (s t : State) : Prop :=
  t.phase = s.phase ∧ t.fill = s.fill ∧ runningOf t = runningOf s ∧ snapshotOf t = snapshotOf s ∧ t.x = s.x ∧ t.blk = s.blk

theorem keepsLive_raiseError (k : ErrCode) (s : State) : KeepsLive s (raiseError k s) := by
  simp [KeepsLive]

theorem keepsLive_returnDigestWord (v : Word) (s : State) : KeepsLive s (returnDigestWord v s) := by
  rcases returnDigestWord_eq v s with ⟨-, e⟩ | ⟨-, e⟩ <;> simp [KeepsLive, e]

section
variable {s t s' t' : State}

theorem SameLive.of_kept (h : SameLive s t) (hs : KeepsLive s s') (ht : KeepsLive t t') : SameLive s' t' := by
  obtain ⟨hphase, hfill, hrun, hsnap, hx, hblk⟩ := hs
  obtain ⟨-, -, hrun', hsnap', hx', hblk'⟩ := ht
  simpa only [SameLive, readBlk, hphase, hfill, hrun, hsnap, hx, hblk, hrun', hsnap', hx', hblk'] using h

theorem SameLive.withEvents (h : SameLive s t) (es : List Event) : SameLive (s.withEvents es) (t.withEvents es) :=
  h.of_kept ⟨rfl, rfl, rfl, rfl, rfl, rfl⟩ ⟨rfl, rfl, rfl, rfl, rfl, rfl⟩

theorem SameLive.running_of_done (h : SameLive s t) (hd : s.phase = .done) : runningOf s = runningOf t := by
  simpa only [SameLive, hd] using h

/-- In IDLE no datapath register holds a value of a hash (R38). -/
theorem sameLive_of_idle (hp : s.phase = .idle) : SameLive s t := by
  simp only [SameLive, hp]

/-- An accepted `START` writes every register that the phase it enters may read: `IV`, and the bytes below `FILL` (R103). -/
theorem sameLive_startHash (h : SameControl s t) : SameLive (startHash s) (startHash t) := by
  obtain ⟨-, -, hlen, -⟩ := h
  have hrun : runningOf (startHash s) = runningOf (startHash t) :=
    (startHash_frame s).1.trans (startHash_frame t).1.symm
  rcases startHash_cases s with ⟨-, hp, -⟩ | ⟨h0, hp, hfill, hblk⟩
  · simpa only [SameLive, hp] using hrun
  · rcases startHash_cases t with ⟨h0', -⟩ | ⟨-, -, -, hblk'⟩
    · exact absurd (hlen.trans h0') h0
    · simp only [SameLive, hp]
      refine ⟨hrun, fun j hj => ?_⟩
      have hj' : j.val < padLen s.msglen.toNat := by
        rw [hfill, BitVec.toNat_ofNat] at hj
        exact hj.trans_le (Nat.mod_le _ _)
      simp only [readBlk, hblk, hblk', ← hlen, zeroPrefix_get, if_pos hj']

/-- An accepted byte extends by itself the part of the block on which the states agree; a full block is agreed on whole
(R73). -/
theorem SameLive.acceptByte (hl : SameLive s t) (hp : s.phase = .fill) {j : Fin 64}
    (hj : j.val = s.fill.toNat) (b : Byte) : SameLive (acceptByte j b s) (acceptByte j b t) := by
  simp only [SameLive, hp] at hl
  obtain ⟨hrun, hbytes⟩ := hl
  obtain ⟨hblk, hfill, -, hphase⟩ := acceptByte_spec j b s
  obtain ⟨hblk', -⟩ := acceptByte_spec j b t
  have hrun' : runningOf (Machine.acceptByte j b s) = runningOf (Machine.acceptByte j b t) := by
    rw [(acceptByte_frame j b s).1, (acceptByte_frame j b t).1, hrun]
  have hset : ∀ k : Fin 64, k.val ≤ j.val → (s.blk.set j.val b)[k.val] = (t.blk.set j.val b)[k.val] := by
    intro k hk
    rw [Vector.getElem_set, Vector.getElem_set]
    split
    · rfl
    · exact hbytes k (by omega)
  have hfill' : (s.fill + 1#7).toNat = s.fill.toNat + 1 := by have := j.isLt; bv_omega
  by_cases hfull : s.fill + 1#7 = 64#7
  · rw [if_pos hfull] at hphase
    have h63 : j.val + 1 = 64 := by rw [hj, ← hfill', hfull]; rfl
    simp only [SameLive, hphase]
    refine ⟨hrun', ?_⟩
    rw [hblk, hblk']
    exact Vector.ext fun k hk => hset ⟨k, hk⟩ (by simp only; omega)
  · rw [if_neg hfull, hp] at hphase
    simp only [SameLive, hphase, hfill, hfill', readBlk, hblk, hblk']
    exact ⟨hrun', fun k hk => hset k (by omega)⟩

/-! ## Noninterference -/

/-- A host transaction shows no datapath register but the digest in DONE, and reads none that is not live (R34, R37, R38). -/
theorem HostEffect.congr {i : Instr} (h : HostEffect s i s') (hc : SameControl s t)
    (hr : s.phase = .done → runningOf s = runningOf t) :
    ∃ t', HostEffect t i t' ∧ SameControl s' t' ∧ (SameLive s t → SameLive s' t') := by
  have ⟨hfill, hrem, hlen, hphase, hpass, hround, herr, hev, hret, hdraws⟩ := hc
  have hbusy : busy t = busy s := by simp only [busy, hphase]
  cases h with
  | nop => exact ⟨t, .nop, hc, id⟩
  | start hb => exact ⟨_, .start (hbusy.trans hb), hc.startHash, fun _ => sameLive_startHash hc⟩
  | abort => exact ⟨_, .abort, by simp [SameControl, *], fun _ => sameLive_of_idle (by simp)⟩
  | clrerr =>
    exact ⟨_, .clrerr, by simp [SameControl, *], fun hl => hl.of_kept (by simp [KeepsLive]) (by simp [KeepsLive])⟩
  | setLength len hb =>
    exact ⟨_, .setLength len (hbusy.trans hb), by simp [SameControl, *],
      fun hl => hl.of_kept (by simp [KeepsLive]) (by simp [KeepsLive])⟩
  | accept b j hj hp =>
    exact ⟨_, .accept b j (hfill ▸ hj) (hphase ▸ hp), hc.acceptByte j b, fun hl => hl.acceptByte hp hj b⟩
  | raise k hk =>
    exact ⟨_, .raise k (raisedBy_congr hc i ▸ hk), hc.raiseError k,
      fun hl => hl.of_kept (keepsLive_raiseError k s) (keepsLive_raiseError k t)⟩
  | answer f hf =>
    rw [answerOf_congr hc hf]
    exact ⟨_, .answer f hf, hc.returnToHost _, fun hl => hl.of_kept (by simp [KeepsLive]) (by simp [KeepsLive])⟩
  | digest f hf =>
    exact ⟨_, .digest f hf, hc.returnDigestWord hr f,
      fun hl => hl.of_kept (keepsLive_returnDigestWord _ s) (keepsLive_returnDigestWord _ t)⟩

/-- A round computes the running state from live registers, and the phase after it needs no others (R84). -/
theorem SameLive.runRound (hl : SameLive s t) (hp : s.phase = .round) (p : PassIx) :
    SameLive (runRound p s.round s) (runRound p s.round t) := by
  simp only [SameLive, hp] at hl
  obtain ⟨hrun, hsnap, hx⟩ := hl
  obtain ⟨hrun₁, -, hphase⟩ := runRound_spec p s.round s
  obtain ⟨hrun₂, -⟩ := runRound_spec p s.round t
  obtain ⟨hsnap₁, hx₁, -⟩ := runRound_frame p s.round s
  obtain ⟨hsnap₂, hx₂, -⟩ := runRound_frame p s.round t
  by_cases hlast : s.round.toNat < 7
  · rw [if_pos hlast, hp] at hphase
    simp only [SameLive, hphase, hrun₁, hrun₂, hrun, hsnap₁, hsnap₂, hsnap, hx₁, hx₂, hx, and_self]
  · rw [if_neg hlast] at hphase
    cases p <;> simp only [SameLive, hphase, phaseAfterPass, hrun₁, hrun₂, hrun, hsnap₁, hsnap₂, hsnap, hx₁, hx₂, hx,
      and_self]

/-- CORE's micro-op reads live registers only, and leaves every register live that the next phase may read. -/
theorem CoreEffect.congr (h : CoreEffect s s') (hc : SameControl s t) (hl : SameLive s t) :
    ∃ t', CoreEffect t t' ∧ SameControl s' t' ∧ SameLive s' t' := by
  have ⟨hfill, hrem, hlen, hphase, hpass, hround, herr, hev, hret, hdraws⟩ := hc
  cases h with
  | wait hp => exact ⟨t, .wait (hphase ▸ hp), hc, hl⟩
  | load hp =>
    simp only [SameLive, hp] at hl
    exact ⟨_, .load (hphase ▸ hp), by simp [SameControl, *], by simp [SameLive, hl]⟩
  | save hp =>
    simp only [SameLive, hp] at hl
    exact ⟨_, .save (hphase ▸ hp), by simp [SameControl, *], by simp [SameLive, hl]⟩
  | round p hp hp' =>
    exact ⟨_, .round p (hphase ▸ hp) (hpass ▸ hp'), hround ▸ hc.runRound p s.round, hround ▸ hl.runRound hp p⟩
  | ksched hp =>
    simp only [SameLive, hp] at hl
    exact ⟨_, .ksched (hphase ▸ hp), by simp [SameControl, *], by simp [SameLive, hl]⟩
  | ffwd hp =>
    simp only [SameLive, hp] at hl
    refine ⟨_, .ffwd (hphase ▸ hp), by simp [SameControl, *], ?_⟩
    by_cases h0 : s.rem = 0#64 <;> simp [SameLive, hl, h0]

end

/-- Settles O49: outside DONE the digest reads' condition is empty. -/
theorem intermediateStateIsHidden : Obligations.IntermediateStateIsHidden := by
  intro i s t s' hi hc hd h
  obtain ⟨t', ht, hc', -⟩ := (hostEffect_of_exec hi h).congr hc (absurd · hd)
  exact ⟨t', ht.exec_eq, hc'⟩

/-- The other state takes the same event, to the same control state and live registers. -/
theorem StepEffect.congr {s t s' : State} (h : StepEffect s s') (hc : SameControl s t) (hl : SameLive s t) :
    ∃ t', StepEffect t t' ∧ SameControl s' t' ∧ SameLive s' t' := by
  have ⟨_, _, _, _, _, _, herr, hev, _, _⟩ := hc
  rcases h with ⟨es, hes, he, h⟩ | ⟨acc, es, i, hes, he, hw, hd, h⟩ | ⟨es, hes, rfl⟩
  · obtain ⟨t', ht, hc', hl'⟩ := h.congr (hc.withEvents es) (hl.withEvents es)
    exact ⟨t', .core es (hev ▸ hes) (herr ▸ he) ht, hc', hl'⟩
  · obtain ⟨t', ht, hc', hl'⟩ := h.congr (hc.withEvents es) (hl.withEvents es).running_of_done
    exact ⟨t', .host acc es i (hev ▸ hes) (herr ▸ he) hw hd ht, hc', hl' (hl.withEvents es)⟩
  · exact ⟨_, .reset es (hev ▸ hes) rfl, (hc.withEvents es).resetCore, sameLive_of_idle rfl⟩

/-- Settles O48, by the event taken and then the effects of its instruction. -/
theorem unwrittenRegistersAreNeverRead : Obligations.UnwrittenRegistersAreNeverRead := by
  intro s t s' hc hl h
  obtain ⟨t', ht, hc', hl'⟩ := (step_iff.1 h).congr hc hl
  exact ⟨t', step_iff.2 ht, hc', hl'⟩

end Sys2Proof.Machine

namespace Sys2Proof.Machine

/-! # The host's accesses: which have a step, and what they write

A step is stated once per kind of event, and an admitted access always runs because every host transaction has an effect
in a state whose `FILL` is within the block (R45, R46, R101). The block buffer's writers (R40, R73, R103) and the reads (R47)
are read off the effects of the transactions. -/

/-! ## Which requests are admitted (R45) -/

/-- An aligned request selects a transaction. -/
theorem exists_decodeHost_of_aligned {t : BitVec 73} (h : (reqOff t).toNat % 8 = 0) : ∃ i, decodeHost t = .ok i :=
  ⟨_, by rw [decodeHost, if_pos ((offAligned_iff _).2 h)]⟩

theorem decodeHost_of_misaligned {t : BitVec 73} (h : (reqOff t).toNat % 8 ≠ 0) :
    decodeHost t = .error .misalignedOffset := by
  rw [decodeHost, if_neg (mt (offAligned_iff _).1 h)]

/-! ## One step, by the event it takes (R46, R50) -/

section
variable {s : State} {es : List Event} {acc : HostAccess}

/-- The micro-op at `uop` does not depend on the pending events (R58). -/
@[simp] theorem uopOf_withEvents (s : State) (es : List Event) : uopOf (s.withEvents es) = uopOf s := rfl

theorem step_core (he : ErrorCodeOk s) (hev : s.events = .core :: es) :
    step s = exec (decodeUop (uopOf s)) (s.withEvents es) := by
  simp [step, fetch, hev, guardErrorCode, errorCodeReserved_eq_false he, fetchCore]

theorem step_reset (hev : s.events = .reset :: es) : step s = .next (resetCore (s.withEvents es)) := by
  simp [step, fetch, hev]

/-- An admitted access runs its transaction, busy or not (R101). -/
theorem step_host {i : Instr} (he : ErrorCodeOk s) (hev : s.events = .host acc :: es) (hw : acc.width = .w64)
    (hd : decodeHost acc.req = .ok i) : step s = exec i (s.withEvents es) := by
  simp [step, fetch, hev, guardErrorCode, errorCodeReserved_eq_false he, fetchHost, hw, hd]

theorem step_narrow (he : ErrorCodeOk s) (hev : s.events = .host acc :: es) (hw : acc.width ≠ .w64) :
    step s = .refused .narrowAccess := by
  simp [step, fetch, hev, guardErrorCode, errorCodeReserved_eq_false he, fetchHost, hw]

theorem step_misaligned (he : ErrorCodeOk s) (hev : s.events = .host acc :: es) (hw : acc.width = .w64)
    (hd : decodeHost acc.req = .error .misalignedOffset) : step s = .refused .misalignedAccess := by
  simp [step, fetch, hev, guardErrorCode, errorCodeReserved_eq_false he, fetchHost, hw, hd]

end

/-- Settles O24: one equation of the step per kind of event. -/
theorem stepRunsDecodedInstruction : Obligations.StepRunsDecodedInstruction := fun _ _ he =>
  ⟨fun _ _ hd hev => step_host he hev rfl hd, step_core he, step_idle he, step_reset⟩

/-- Settles O26: the width is checked first, then the offset. -/
theorem unadmittedAccessRefused : Obligations.UnadmittedAccessRefused := fun _ _ _ he hev =>
  ⟨step_narrow he hev, fun hw ho => step_misaligned he hev hw (decodeHost_of_misaligned ho)⟩

/-! ## Every host transaction answers (R101) -/

/-- Only `WR_DIN` in phase FILL needs something of the state: that `BLK[FILL]` exists (R73, R119). -/
theorem exists_hostEffect {s : State} {i : Instr} (hi : isHostTransaction i = true)
    (hfill : s.phase = .fill → s.fill.toNat < 64) : ∃ t, HostEffect s i t := by
  cases i
  case waitIdle | waitFill | load | save | roundP0 | roundP1 | roundP2 | roundRsvd | ksched | ffwd | waitDone => cases hi
  case wrCtrlNop => exact ⟨_, .nop⟩
  case wrCtrlAbort => exact ⟨_, .abort⟩
  case wrCtrlClrerr => exact ⟨_, .clrerr⟩
  case wrCtrlStart =>
    cases hb : busy s
    · exact ⟨_, .start hb⟩
    · exact ⟨_, .raise .startBusy (by simp [raisedBy, hb])⟩
  case wrMsglen len =>
    cases hb : busy s
    · exact ⟨_, .setLength len hb⟩
    · exact ⟨_, .raise .msglenBusy (by simp [raisedBy, hb])⟩
  case wrDin b =>
    by_cases hp : s.phase = .fill
    · exact ⟨_, .accept b ⟨s.fill.toNat, hfill hp⟩ rfl hp⟩
    · exact ⟨_, .raise .dinNotReady (by simp [raisedBy, hp])⟩
  case wrCtrlRsvdLo | wrCtrlRsvdHi | wrStatus | wrRemain | wrDigestA | wrDigestB | wrDigestC | wrRsvdLo | wrRsvdHi =>
    exact ⟨_, .raise _ rfl⟩
  case rdCtrl | rdStatus | rdMsglen | rdDin | rdRemain | rdRsvdLo | rdRsvdHi => exact ⟨_, .answer _ rfl⟩
  case rdDigestA | rdDigestB | rdDigestC => exact ⟨_, .digest _ rfl⟩

/-- No transaction touches the events still to come (log 2). -/
theorem HostEffect.events {s t : State} {i : Instr} (h : HostEffect s i t) : t.events = s.events := by
  cases h with
  | nop | abort | clrerr | setLength | answer => rfl
  | raise => simp
  | start =>
    obtain ⟨-, -, -, -, -, -, -, -, hev, -⟩ := startHash_frame s
    exact hev
  | accept b j =>
    obtain ⟨-, -, -, -, -, -, -, hev, -⟩ := acceptByte_frame j b s
    exact hev
  | digest f => rcases returnDigestWord_eq (f (runningOf s)) s with ⟨-, e⟩ | ⟨-, e⟩ <;> rw [e] <;> rfl

/-- In phase FILL the invariant leaves room for a byte (R26). -/
theorem MachineInv.fill_lt {s : State} (h : MachineInv s) (hp : s.phase = .fill) : s.fill.toNat < 64 := by
  obtain ⟨hc, -⟩ := h
  simp only [CountersOk, hp] at hc
  omega

/-- Settles O27: an aligned request decodes, and its transaction has an effect in every state of the invariant. -/
theorem admittedAccessAlwaysRuns : Obligations.AdmittedAccessAlwaysRuns := by
  intro s acc es hs hev hw ho
  have ⟨_, _, he, _⟩ := hs
  obtain ⟨i, hd⟩ := exists_decodeHost_of_aligned ho
  obtain ⟨t, ht⟩ := exists_hostEffect (s := s.withEvents es) (decodeHost_isHostTransaction hd) hs.fill_lt
  exact ⟨t, (step_host he hev hw hd).trans ht.exec_eq, ht.events⟩

/-! ## Who writes the block buffer (R40) -/

/-- An accepted byte reads back at its index, and every other byte stays (R73). -/
theorem readBlk_acceptByte (j k : Fin 64) (b : Byte) (s : State) :
    readBlk (acceptByte j b s) k = if k = j then b else readBlk s k := by
  obtain ⟨hblk, -⟩ := acceptByte_spec j b s
  rw [← readBlk_storeBlk]
  simp only [readBlk, hblk, storeBlk_blk]

/-- A `START` is accepted in IDLE and in DONE (R23, R103). -/
theorem not_busy_iff (s : State) : busy s = false ↔ s.phase = .idle ∨ s.phase = .done := by
  rw [← Bool.not_eq_true, busy_iff, not_and_or, not_not, not_not]

/-- An accepted `START` of a non-empty message clears the bytes of its padding (R69, R103). -/
theorem readBlk_startHash (s : State) (j : Fin 64) :
    readBlk (startHash s) j = if s.msglen ≠ 0#64 ∧ j.val < padLen s.msglen.toNat then 0#8 else readBlk s j := by
  rcases startHash_cases s with ⟨h0, -, -, hblk⟩ | ⟨h0, -, -, hblk⟩
  · simp [readBlk, hblk, h0]
  · simp only [readBlk, hblk, zeroPrefix_get, ne_eq, h0, not_false_eq_true, true_and]

/-- No other instruction writes a byte of it. -/
theorem blk_of_exec {s t : State} {i : Instr} (h : exec i s = .next t) (hs : i ≠ .wrCtrlStart)
    (hd : ∀ b, i ≠ .wrDin b) : t.blk = s.blk := by
  cases hi : isHostTransaction i
  case true =>
    cases hostEffect_of_exec hi h with
    | nop | abort | clrerr | setLength | answer => rfl
    | raise => simp
    | start => exact absurd rfl hs
    | accept b => exact absurd rfl (hd b)
    | digest f => rcases returnDigestWord_eq (f (runningOf s)) s with ⟨-, e⟩ | ⟨-, e⟩ <;> rw [e] <;> rfl
  case false =>
    cases i
    case roundP0 k | roundP1 k | roundP2 k =>
      cases h
      obtain ⟨-, -, hblk, -⟩ := runRound_frame _ k s
      exact hblk
    case roundRsvd => cases h
    case waitIdle | waitFill | waitDone | load | save | ksched | ffwd => cases h; rfl
    all_goals cases hi

/-- Settles O39: the two instructions that write `BLK`, accepted and not, and then all others. -/
theorem blockBufferFrame : Obligations.BlockBufferFrame := by
  intro i s t j h
  split
  next b =>
    rcases execWrDin_cases h with ⟨hj, hp, rfl⟩ | ⟨hp, rfl⟩
    · simp [readBlk_acceptByte, hp, Fin.ext_iff]
    · simp [readBlk, hp]
  next =>
    cases hb : busy s <;> simp only [exec, execWrCtrlStart, hb] at h <;> cases h
    · simp [readBlk_startHash, ← not_busy_iff, hb]
    · simp [readBlk, ← not_busy_iff, hb]
  next hd hs =>
    simp only [readBlk, blk_of_exec h hs hd]

/-! ## The reads (R47) -/

/-- A read answers a control-state value or a word of the digest (R109 to R115). -/
theorem answerOf_or_digestOf_of_isRead {i : Instr} (h : isRead i = true) :
    (∃ f, answerOf i = some f) ∨ ∃ f, digestOf i = some f := by
  cases i
  case rdCtrl | rdStatus | rdMsglen | rdDin | rdRemain | rdRsvdLo | rdRsvdHi => exact .inl ⟨_, rfl⟩
  case rdDigestA | rdDigestB | rdDigestC => exact .inr ⟨_, rfl⟩
  all_goals cases h

/-- Settles O40: a control-state value and a digest word in DONE are returned, a digest word elsewhere is drawn. -/
theorem readsHaveNoSideEffect : Obligations.ReadsHaveNoSideEffect := by
  intro i s hi
  rcases answerOf_or_digestOf_of_isRead hi with ⟨f, hf⟩ | ⟨f, hf⟩
  · exact ⟨f s, s.draws, exec_of_answerOf hf s⟩
  · rw [exec_of_digestOf hf]
    rcases returnDigestWord_eq (f (runningOf s)) s with ⟨-, e⟩ | ⟨-, e⟩
    · exact ⟨_, s.draws, congrArg Host.Outcome.next e⟩
    · exact ⟨_, s.draws + 1, congrArg Host.Outcome.next e⟩

end Sys2Proof.Machine

namespace Sys2Proof.Machine

/-! # The encodings of both formats

What the decoder answers on a request built from its fields and on a micro-op word is said once, by lemmas on
`request`, `decodeWrite`, `decodeRead`, `decodeCommand` and `uopWord`. The round trip reads them off the constructors. That one
table row selects a request follows from `RowOfEncoding`, which says it of the encodings, because a request and the encoding
of its instruction differ in ignored bits only. -/

open Laws

/-! ## Micro-op words (R58, R64) -/

@[simp] theorem phase_uopWord (p : BitVec 3) (q : BitVec 2) (r : BitVec 3) : (uopWord p q r).extractLsb' 5 3 = p :=
  let ⟨hp, _, _⟩ := uopWord_fields p q r; hp

@[simp] theorem pass_uopWord (p : BitVec 3) (q : BitVec 2) (r : BitVec 3) : (uopWord p q r).extractLsb' 3 2 = q :=
  let ⟨_, hq, _⟩ := uopWord_fields p q r; hq

@[simp] theorem round_uopWord (p : BitVec 3) (q : BitVec 2) (r : BitVec 3) : (uopWord p q r).extractLsb' 0 3 = r :=
  let ⟨_, _, hr⟩ := uopWord_fields p q r; hr

/-- Settles O25: a state's micro-op word is built from the three registers, whose fields read back. -/
theorem uopWordIsSequencerState : Obligations.UopWordIsSequencerState :=
  ⟨fun s => uopWord_fields (phaseCode s.phase) s.pass s.round, rfl⟩

/-- The words of phase 100 name their round (R64). -/
theorem decodeUop_roundP0 (r : BitVec 3) : decodeUop (uopWord 4#3 0#2 r) = .roundP0 r := by simp [decodeUop]

theorem decodeUop_roundP1 (r : BitVec 3) : decodeUop (uopWord 4#3 1#2 r) = .roundP1 r := by simp [decodeUop]

theorem decodeUop_roundP2 (r : BitVec 3) : decodeUop (uopWord 4#3 2#2 r) = .roundP2 r := by simp [decodeUop]

/-- A micro-op word is never a transaction (R2). -/
theorem isHostTransaction_decodeUop (u : BitVec 8) : isHostTransaction (decodeUop u) = false := by
  simp only [decodeUop]
  split_ifs <;> rfl

/-- Exactly the decoded instruction's row selects each of the 256 words (R64). -/
theorem rowsOf_uop (u : BitVec 8) : rowsOf (.uop u) = [mnemonicOf (decodeUop u)] := by
  revert u; decide

/-- Settles O33: the map from the fields of the word, the rows by `rowsOf_uop`. -/
theorem oneTableRowPerUop : Obligations.OneTableRowPerUop :=
  ⟨fun q r => by simp [decodeUop], fun u => ⟨rowsOf_uop u, isHostTransaction_decodeUop u⟩⟩

/-! ## Requests built from their fields (R55 to R57) -/

section
variable {off : BitVec 8}

/-- A write at an admitted offset (R55, R63). -/
theorem decodeHost_write (h : off.toNat % 8 = 0) (d : Word) :
    decodeHost (request true off d) = .ok (decodeWrite off d) := by
  rw [decodeHost_request, if_pos ((offAligned_iff off).2 h)]; rfl

/-- A read at an admitted offset, whatever its `DATA` (R55, R63). -/
theorem decodeHost_read (h : off.toNat % 8 = 0) (d : Word) :
    decodeHost (request false off d) = .ok (decodeRead off) := by
  rw [decodeHost_request, if_pos ((offAligned_iff off).2 h)]; rfl

/-- A request that decodes is one of the two. -/
theorem decodeHost_cases {t : BitVec 73} {i : Instr} (h : decodeHost t = .ok i) :
    ∃ off d, off.toNat % 8 = 0 ∧
      (t = request true off d ∧ i = decodeWrite off d ∨ t = request false off d ∧ i = decodeRead off) := by
  have ho : (reqOff t).toNat % 8 = 0 := by
    by_contra ho
    rw [decodeHost_of_misaligned ho] at h; cases h
  refine ⟨reqOff t, reqData t, ho, ?_⟩
  rw [← request_fields t] at h
  cases hw : reqWe t <;> rw [hw] at h
  · rw [decodeHost_read ho] at h
    exact .inr ⟨by rw [← hw, request_fields], (Except.ok.inj h).symm⟩
  · rw [decodeHost_write ho] at h
    exact .inl ⟨by rw [← hw, request_fields], (Except.ok.inj h).symm⟩

/-- A write to CTRL is decoded by its command, a write to DIN carries its byte (R56, R57). -/
theorem decodeWrite_ctrl (d : Word) : decodeWrite 0x00#8 d = decodeCommand (cmdOf d) := rfl

theorem decodeWrite_din (d : Word) : decodeWrite 0x18#8 d = .wrDin (byteOfDin d) := rfl

end

/-- Settles O34: `CMD` and `BYTE` are all that the decoder takes of a write's `DATA`, and of a read's it takes nothing. -/
theorem ignoredBitsSelectNothing : Obligations.IgnoredBitsSelectNothing := by
  have hctrl (d : Word) : decodeHost (request true 0x00#8 d) = .ok (decodeCommand (d.extractLsb' 0 4)) :=
    decodeHost_write rfl d
  have hdin (d : Word) : decodeHost (request true 0x18#8 d) = .ok (.wrDin (d.extractLsb' 0 8)) :=
    decodeHost_write rfl d
  refine ⟨hctrl, hdin, fun d d' h => ?_, fun d d' h => ?_, fun off d d' => ?_⟩
  · rw [hctrl, hctrl, h]
  · rw [hdin, hdin, h]
  · simp only [decodeHost_request, Bool.false_eq_true, if_false]

/-- Settles O30: the fourteen words are evaluated. -/
theorem sampleWordsDecode : Obligations.SampleWordsDecode := by
  unfold Obligations.SampleWordsDecode; decide

/-! ## The reserved rows (R62, R63) -/

section
variable {off : BitVec 8} {cmd : BitVec 4}

theorem wf_wrRsvdLo :
    (Instr.wrRsvdLo off).wf = true ↔ off.toNat % 8 = 0 ∧ 0x40 ≤ off.toNat ∧ off.toNat ≤ 0x78 := by
  simp [Instr.wf, and_assoc]

theorem wf_wrRsvdHi : (Instr.wrRsvdHi off).wf = true ↔ off.toNat % 8 = 0 ∧ 0x80 ≤ off.toNat := by
  simp [Instr.wf]

/-- The reads have the writes' ranges. -/
theorem wf_rdRsvdLo :
    (Instr.rdRsvdLo off).wf = true ↔ off.toNat % 8 = 0 ∧ 0x40 ≤ off.toNat ∧ off.toNat ≤ 0x78 := wf_wrRsvdLo

theorem wf_rdRsvdHi : (Instr.rdRsvdHi off).wf = true ↔ off.toNat % 8 = 0 ∧ 0x80 ≤ off.toNat := wf_wrRsvdHi

/-- An admitted offset is one of the eight registers', or in the range of a reserved row. -/
theorem admittedOffset_cases (h : off.toNat % 8 = 0) :
    off ∈ [0x00#8, 0x08#8, 0x10#8, 0x18#8, 0x20#8, 0x28#8, 0x30#8, 0x38#8] ∨
      (0x40 ≤ off.toNat ∧ off.toNat ≤ 0x78) ∨ 0x80 ≤ off.toNat := by
  revert off; decide

/-- An offset of `0x40` or above is no register's. -/
theorem decodeWrite_reserved (h : 0x40 ≤ off.toNat) (d : Word) :
    decodeWrite off d = if off.toNat < 0x80 then .wrRsvdLo off else .wrRsvdHi off := by
  have hne (k : BitVec 8) (hk : k.toNat < 0x40) : off ≠ k := by rintro rfl; omega
  simp [decodeWrite, hne]

theorem decodeRead_reserved (h : 0x40 ≤ off.toNat) :
    decodeRead off = if off.toNat < 0x80 then .rdRsvdLo off else .rdRsvdHi off := by
  have hne (k : BitVec 8) (hk : k.toNat < 0x40) : off ≠ k := by rintro rfl; omega
  simp [decodeRead, hne]

/-- A command of 4 or above is reserved. -/
theorem decodeCommand_reserved (h : 4 ≤ cmd.toNat) :
    decodeCommand cmd = if cmd.toNat < 8 then .wrCtrlRsvdLo cmd else .wrCtrlRsvdHi cmd := by
  have hne (k : BitVec 4) (hk : k.toNat < 4) : cmd ≠ k := by rintro rfl; omega
  simp [decodeCommand, hne]

end

/-! ## The round trip -/

/-- `CMD` and `BYTE` survive being written into `DATA` with zeros above them (R56, R57). -/
@[simp] theorem cmdOf_setWidth (cmd : BitVec 4) : cmdOf (cmd.setWidth 64) = cmd := by
  revert cmd; decide

@[simp] theorem byteOfDin_setWidth (b : Byte) : byteOfDin (b.setWidth 64) = b := by
  revert b; decide

theorem decode_encodeCommand (cmd : BitVec 4) : decode (encodeCommand cmd) = .ok (decodeCommand cmd) := by
  rw [encodeCommand, decode, decodeHost_write rfl, decodeWrite_ctrl, cmdOf_setWidth]

/-- Settles O31, by the constructors: the rows of one register, whose offset is a numeral, and then the reserved rows, where
well-formedness puts the operand in the decoder's range. -/
theorem decodeEncodeRoundTrip : Obligations.DecodeEncodeRoundTrip := by
  intro i hwf
  cases i
  case wrCtrlNop | wrCtrlStart | wrCtrlAbort | wrCtrlClrerr => exact decode_encodeCommand _
  case wrMsglen | wrStatus | wrRemain | wrDigestA | wrDigestB | wrDigestC => exact decodeHost_write rfl _
  case rdCtrl | rdStatus | rdMsglen | rdDin | rdRemain | rdDigestA | rdDigestB | rdDigestC =>
    exact decodeHost_read rfl _
  case wrDin b => rw [encode, decode, decodeHost_write rfl, decodeWrite_din, byteOfDin_setWidth]
  case wrCtrlRsvdLo cmd =>
    obtain ⟨hlo, hhi⟩ : 4 ≤ cmd.toNat ∧ cmd.toNat ≤ 7 := by simpa [Instr.wf] using hwf
    rw [encode, decode_encodeCommand, decodeCommand_reserved hlo, if_pos (by omega)]
  case wrCtrlRsvdHi cmd =>
    have hhi : 8 ≤ cmd.toNat := by simpa [Instr.wf] using hwf
    rw [encode, decode_encodeCommand, decodeCommand_reserved (by omega), if_neg (by omega)]
  case wrRsvdLo off =>
    obtain ⟨h8, hlo, hhi⟩ := wf_wrRsvdLo.1 hwf
    rw [encode, decode, decodeHost_write h8, decodeWrite_reserved hlo, if_pos (by omega)]
  case wrRsvdHi off =>
    obtain ⟨h8, hhi⟩ := wf_wrRsvdHi.1 hwf
    rw [encode, decode, decodeHost_write h8, decodeWrite_reserved (by omega), if_neg (by omega)]
  case rdRsvdLo off =>
    obtain ⟨h8, hlo, hhi⟩ := wf_rdRsvdLo.1 hwf
    rw [encode, decode, decodeHost_read h8, decodeRead_reserved hlo, if_pos (by omega)]
  case rdRsvdHi off =>
    obtain ⟨h8, hhi⟩ := wf_rdRsvdHi.1 hwf
    rw [encode, decode, decodeHost_read h8, decodeRead_reserved (by omega), if_neg (by omega)]
  case roundP0 r => exact congrArg Except.ok (decodeUop_roundP0 r)
  case roundP1 r => exact congrArg Except.ok (decodeUop_roundP1 r)
  case roundP2 r => exact congrArg Except.ok (decodeUop_roundP2 r)
  case waitIdle | waitFill | load | save | roundRsvd | ksched | ffwd | waitDone => rfl

/-! ## The decoder gives well-formed instructions -/

section
variable {off : BitVec 8}

theorem wf_decodeCommand (cmd : BitVec 4) : (decodeCommand cmd).wf = true := by
  revert cmd; decide

theorem wf_decodeWrite (h : off.toNat % 8 = 0) (d : Word) : (decodeWrite off d).wf = true := by
  rcases admittedOffset_cases h with hreg | ⟨hlo, hhi⟩ | hhi
  · simp only [List.mem_cons, List.not_mem_nil, or_false] at hreg
    rcases hreg with rfl | rfl | rfl | rfl | rfl | rfl | rfl | rfl
    · exact wf_decodeCommand _
    all_goals rfl
  · rw [decodeWrite_reserved hlo, if_pos (by omega)]
    exact wf_wrRsvdLo.2 ⟨h, hlo, hhi⟩
  · rw [decodeWrite_reserved (by omega), if_neg (by omega)]
    exact wf_wrRsvdHi.2 ⟨h, hhi⟩

theorem wf_decodeRead (h : off.toNat % 8 = 0) : (decodeRead off).wf = true := by
  rcases admittedOffset_cases h with hreg | ⟨hlo, hhi⟩ | hhi
  · simp only [List.mem_cons, List.not_mem_nil, or_false] at hreg
    rcases hreg with rfl | rfl | rfl | rfl | rfl | rfl | rfl | rfl <;> rfl
  · rw [decodeRead_reserved hlo, if_pos (by omega)]
    exact wf_rdRsvdLo.2 ⟨h, hlo, hhi⟩
  · rw [decodeRead_reserved (by omega), if_neg (by omega)]
    exact wf_rdRsvdHi.2 ⟨h, hhi⟩

theorem wf_of_decodeHost {t : BitVec 73} {i : Instr} (h : decodeHost t = .ok i) : i.wf = true := by
  obtain ⟨off, d, ho, ⟨-, rfl⟩ | ⟨-, rfl⟩⟩ := decodeHost_cases h
  · exact wf_decodeWrite ho d
  · exact wf_decodeRead ho

end

/-! ## Which bits of a request the table's rows look at (R55) -/

section
variable {we : Bool} {off : BitVec 8}

theorem reqWe_and (s t : BitVec 73) : reqWe (s &&& t) = (reqWe s && reqWe t) := BitVec.getLsbD_and

theorem reqOff_and (s t : BitVec 73) : reqOff (s &&& t) = reqOff s &&& reqOff t := BitVec.extractLsb'_and

theorem reqData_and (s t : BitVec 73) : reqData (s &&& t) = reqData s &&& reqData t := BitVec.extractLsb'_and

/-- Requests with the same fields are the same. -/
theorem request_ext_iff {s t : BitVec 73} :
    s = t ↔ reqWe s = reqWe t ∧ reqOff s = reqOff t ∧ reqData s = reqData t := by
  refine ⟨by rintro rfl; exact ⟨rfl, rfl, rfl⟩, fun ⟨hw, ho, hd⟩ => ?_⟩
  rw [← request_fields s, ← request_fields t, hw, ho, hd]

/-- A row selects a request field by field. -/
theorem hostRowSelects_iff (t : BitVec 73) (r : HostRow) :
    hostRowSelects t r = true ↔ (reqWe t && reqWe r.mask) = reqWe r.pattern ∧
      reqOff t &&& reqOff r.mask = reqOff r.pattern ∧ reqData t &&& reqData r.mask = reqData r.pattern := by
  rw [hostRowSelects, beq_iff_eq, request_ext_iff, reqWe_and, reqOff_and, reqData_and]

/-- A row looks at no bit of `DATA`, unless it is a row of writes to CTRL. -/
theorem hostRows_data : ∀ r ∈ hostRows, reqData r.mask = 0#64 ∨
    (reqWe r.mask = true ∧ reqWe r.pattern = true ∧ reqOff r.mask = 0xFF#8 ∧ reqOff r.pattern = 0x00#8) := by
  decide

/-- The `DATA` of a request other than a write to CTRL selects no row. -/
theorem rowsOf_host_data (h : we = true → off ≠ 0x00#8) (d d' : Word) :
    rowsOf (.host (request we off d)) = rowsOf (.host (request we off d')) := by
  refine congrArg (List.map HostRow.name) (List.filter_congr fun r hr => ?_)
  rw [Bool.eq_iff_iff, hostRowSelects_iff, hostRowSelects_iff]
  rcases hostRows_data r hr with hdata | ⟨hmw, hpw, hmo, hpo⟩
  · simp [hdata]
  · have hoff : off &&& 0xFF#8 = off := BitVec.and_allOnes
    simp only [reqWe_request, reqOff_request, hmw, hpw, hmo, hpo, hoff, Bool.and_true]
    exact ⟨fun ⟨hw, ho, _⟩ => absurd ho (h hw), fun ⟨hw, ho, _⟩ => absurd ho (h hw)⟩

/-! ## A request and the encoding of its instruction -/

theorem encode_decodeCommand (cmd : BitVec 4) : encode (decodeCommand cmd) = encodeCommand cmd := by
  revert cmd; decide

/-- The encoding of a read keeps `OFF` and writes `DATA` as 0. -/
theorem encode_decodeRead (off : BitVec 8) : encode (decodeRead off) = .host (request false off 0#64) := by
  unfold decodeRead
  split_ifs <;> simp only [encode, *]

/-- The encoding of a write other than to CTRL keeps `OFF`; `DATA` may lose its ignored bits. -/
theorem encode_decodeWrite (h : off ≠ 0x00#8) (d : Word) :
    ∃ d', encode (decodeWrite off d) = .host (request true off d') := by
  rw [decodeWrite, if_neg h]
  split_ifs <;> subst_vars <;> exact ⟨_, rfl⟩

end

/-- The rows that select a request are those that select the encoding of its instruction. -/
theorem rowsOf_encode_of_decodeHost {t : BitVec 73} {i : Instr} (h : decodeHost t = .ok i) :
    rowsOf (encode i) = rowsOf (.host t) := by
  obtain ⟨off, d, -, ⟨rfl, rfl⟩ | ⟨rfl, rfl⟩⟩ := decodeHost_cases h
  · by_cases h0 : off = 0x00#8
    · rw [h0, decodeWrite_ctrl, encode_decodeCommand, encodeCommand, ← rowsOf_host_low]
    · obtain ⟨d', he⟩ := encode_decodeWrite h0 d
      rw [he, rowsOf_host_data (fun _ => h0) d' d]
  · rw [encode_decodeRead, rowsOf_host_data (by simp) 0#64 d]

open RowOfEncoding in
/-- The lemmas of `RowOfEncoding` together (R55, R64). -/
theorem rowsOf_encode {i : Instr} (h : i.wf = true) : rowsOf (encode i) = [mnemonicOf i] := by
  revert h
  cases i
  exacts [wrCtrlNop, wrCtrlStart, wrCtrlAbort, wrCtrlClrerr, wrCtrlRsvdLo _, wrCtrlRsvdHi _, wrMsglen _, wrDin _, wrStatus,
    wrRemain, wrDigestA, wrDigestB, wrDigestC, wrRsvdLo _, wrRsvdHi _, rdCtrl, rdStatus, rdMsglen, rdDin, rdRemain,
    rdDigestA, rdDigestB, rdDigestC, rdRsvdLo _, rdRsvdHi _, waitIdle, waitFill, load, save, roundP0 _, roundP1 _,
    roundP2 _, roundRsvd, ksched, ffwd, waitDone]

/-- Settles O32: an aligned request decodes to a well-formed instruction, and its rows are those of the encoding. -/
theorem oneTableRowPerRequest : Obligations.OneTableRowPerRequest := by
  intro t ho
  obtain ⟨i, hd⟩ := exists_decodeHost_of_aligned ho
  have hwf := wf_of_decodeHost hd
  have hrows : rowsOf (.host t) = [mnemonicOf i] := (rowsOf_encode_of_decodeHost hd).symm.trans (rowsOf_encode hwf)
  exact ⟨i, hd, hwf, decodeHost_isHostTransaction hd, hrows⟩

end Sys2Proof.Machine

namespace Sys2Proof.Machine

/-! # The padder, the block loader, the snapshot, and the progress of a hash

The padded message is described by its length and its blocks (R69 to R72), and the operations of the front of the pipeline by
equations on the whole state (R73 to R77). That every step keeps the progress of `tiger` (R74, R95, R97, R98) is then
proved operation by operation: an accepted `START`, an accepted byte, a micro-op of CORE; everything else keeps or drops the
hash as a whole. -/

/-! ## The padded message (R69 to R72) -/

theorem padLen_lt (len : Nat) : padLen len < 64 := Nat.mod_lt _ (by decide)

theorem numBlocks_eq_ceil (len : Nat) : numBlocks len = (len + 63) / 64 := by
  rw [numBlocks, padLen]; omega

theorem padMsg_length (m : List Byte) : (padMsg m).length = 64 * numBlocks m.length := by
  rw [padMsg, List.length_append, List.length_replicate, numBlocks, padLen]; omega

theorem blockAt_get (bytes : List Byte) (k : Nat) (j : Fin 64) :
    (blockAt bytes k)[j.val] = bytes.getD (64 * k + j.val) 0#8 := by
  simp only [blockAt, Vector.getElem_ofFn]

/-- Settles O52: the length of the padded message is 64 times the rounded-up quotient, and its blocks lie within it. -/
theorem paddingReachesNextMultiple : Obligations.PaddingReachesNextMultiple := by
  refine ⟨fun m => ⟨rfl, ?_, ?_, fun n hn hle => ?_, padMsg_length m⟩,
    fun len => ⟨rfl, Nat.le_of_lt_succ (padLen_lt len), rfl, numBlocks_eq_ceil len⟩, fun m k j hk => ?_⟩
  · rw [padMsg_length, Nat.mul_mod_right]
  · rw [padMsg_length, numBlocks_eq_ceil]; omega
  · rw [padMsg_length, numBlocks_eq_ceil]; omega
  · have hlt : 64 * k + j.val < (padMsg m).length := by rw [padMsg_length]; omega
    rw [blockAt_get, List.getElem?_eq_getElem hlt, List.getD_eq_getElem _ _ hlt]

/-- A leading zero byte takes the place of one byte of the padding, if there is any. -/
theorem padMsg_cons_zero {m : List Byte} (h : m.length % 64 ≠ 0) : padMsg (0#8 :: m) = padMsg m := by
  have hpad : padLen m.length = padLen (0#8 :: m).length + 1 := by
    simp only [padLen, List.length_cons]; omega
  rw [padMsg, padMsg, hpad, List.replicate_succ', List.append_assoc, List.singleton_append]

/-- Settles O53: the padded message and the number of blocks are the same. -/
theorem leadingZeroSameDigest : Obligations.LeadingZeroSameDigest := by
  intro rom m h
  have hblocks : numBlocks (0#8 :: m).length = numBlocks m.length := by
    simp only [numBlocks_eq_ceil, List.length_cons]; omega
  rw [tiger, tiger, padMsg_cons_zero h, hblocks]

/-! ## The chunker (R73) -/

theorem raiseError_eq (k : ErrCode) (s : State) :
    raiseError k s = { s with errcode := if s.errcode = 0#4 then errorCode k else s.errcode } := by
  unfold raiseError; split <;> rfl

theorem acceptByte_eq (j : Fin 64) (b : Byte) (s : State) :
    acceptByte j b s = { s with
      blk := s.blk.set j.val b, fill := s.fill + 1#7, rem := s.rem - 1#64,
      phase := if s.fill + 1#7 = 64#7 then .load else s.phase } := by
  unfold acceptByte
  simp only
  split <;> rfl

/-- Settles O8: the transaction raises `DIN_NOT_READY` or accepts its byte; the incremented `FILL` is 64 where it was 63. -/
theorem dinDeliversByte : Obligations.DinDeliversByte := by
  refine ⟨fun d => decodeHost_write rfl d, fun s b hp => ?_, fun s b h hp => ?_⟩
  · rw [exec_of_raisedBy (k := .dinNotReady) (by simp [raisedBy, hp]), raiseError_eq]; rfl
  · have hx : exec (.wrDin b) s = .next (acceptByte ⟨s.fill.toNat, by omega⟩ b s) :=
      (HostEffect.accept b _ rfl hp).exec_eq
    have hfull : s.fill + 1#7 = 64#7 ↔ s.fill = 63#7 := by bv_omega
    simp only [hx, acceptByte_eq, hfull, hp]

/-! ## The block loader and the snapshot (R75 to R77) -/

/-- Above the lowest byte of a word, its bytes are those of the word without it. -/
theorem extractLsb'_append_byte {n : Nat} (w : BitVec n) (b : Byte) (k : Nat) :
    (w ++ b).extractLsb' (k + 8) 8 = w.extractLsb' k 8 := by
  rw [BitVec.extractLsb'_append_eq_of_le (Nat.le_add_left 8 k), Nat.add_sub_cancel]

/-- Byte `p` of a word built by `BE64` is its argument `p`: the `7 - p` bytes below it are taken off one by one (R11). -/
theorem byteAt_be64 (b0 b1 b2 b3 b4 b5 b6 b7 : Byte) (p : Fin 8) :
    byteAt (be64 b0 b1 b2 b3 b4 b5 b6 b7) p.val = #v[b0, b1, b2, b3, b4, b5, b6, b7][p.val] := by
  fin_cases p <;> repeat refine (extractLsb'_append_byte _ _ _).trans ?_
  · exact BitVec.extractLsb'_eq_self
  all_goals exact BitVec.extractLsb'_append_eq_right

theorem byteAt_groupWord (blk : Vector Byte 64) (g p : Fin 8) :
    byteAt (groupWord blk g) p.val = blk[8 * g.val + p.val] := by
  rw [groupWord, byteAt_be64]
  fin_cases p <;> rfl

/-- Settles O14: the new working buffer is `loadblk BLK`, whose slot `7 - g` is group `g`. -/
theorem loadBuildsWorkingBuffer : Obligations.LoadBuildsWorkingBuffer := by
  refine ⟨fun q r => by simp [decodeUop], fun s => ⟨loadblk s.blk, rfl, fun g p => ?_⟩⟩
  have hslot : (loadblk s.blk)[7 - g.val] = groupWord s.blk g := by
    simp only [← loadblk_get s.blk g, Fin.val_rev, Nat.reduceSubDiff]
  rw [hslot]
  exact byteAt_groupWord s.blk g p

/-- Settles O15: the micro-op word decodes by its phase, and `SAVE` is its three writes. -/
theorem saveTakesSnapshot : Obligations.SaveTakesSnapshot :=
  ⟨fun q r => by simp [decodeUop], fun _ => rfl⟩

/-! ## The passes of a block, and the hash from its blocks (R85, R97, R98) -/

/-- A pass number as the sequencer holds it names its pass (R24). -/
theorem passAt_of_toNat {q : BitVec 2} {p : PassIx} (h : q.toNat = passNat p) : passAt q = p := by
  have hq : q = BitVec.ofNat 2 (passNat p) := BitVec.eq_of_toNat_eq (by rw [h]; cases p <;> rfl)
  rw [hq]; cases p <;> rfl

/-- Where `KSCHED` runs there is a next pass to begin (R24, R90). -/
theorem exists_next_pass {q : BitVec 2} (h : q.toNat ≤ 1) :
    ∃ p p', q.toNat = passNat p ∧ (q + 1#2).toNat = passNat p' ∧ passNat p' = passNat p + 1 := by
  rcases (by omega : q.toNat = 0 ∨ q.toNat = 1) with h | h
  · exact ⟨.p0, .p1, h, by simp only [passNat]; bv_omega, rfl⟩
  · exact ⟨.p1, .p2, h, by simp only [passNat]; bv_omega, rfl⟩

theorem passInput_succ {p p' : PassIx} (h : passNat p' = passNat p + 1) (blk : Vector Byte 64) :
    passInput blk p' = ks (passInput blk p) :=
  match p, p', h with
  | .p0, .p1, _ | .p1, .p2, _ => rfl

theorem passEntry_succ {p p' : PassIx} (h : passNat p' = passNat p + 1) (rom : Rom) (t : Triple)
    (blk : Vector Byte 64) : passEntry rom t blk p' = passOn rom p (passInput blk p) (passEntry rom t blk p) :=
  match p, p', h with
  | .p0, .p1, _ | .p1, .p2, _ => rfl

theorem roundOn_roundsOn (rom : Rom) (p : PassIx) (x : Vector Word 8) (i : BitVec 3) (t : Triple) :
    roundOn rom p i x (roundsOn rom p x i.toNat t) = roundsOn rom p x (i.toNat + 1) t := by
  rw [roundsOn_succ, BitVec.ofNat_toNat, BitVec.setWidth_eq]

theorem compress_eq (rom : Rom) (t : Triple) (blk : Vector Byte 64) :
    compress rom t blk = ffwdOn (passOn rom .p2 (passInput blk .p2) (passEntry rom t blk .p2)) t := rfl

/-- A message delivered whole is padded, and all its blocks are complete. -/
theorem tiger_eq_chain_paddedSoFar (rom : Rom) (d : List Byte) :
    tiger rom d = chain rom (paddedSoFar d.length d) ((paddedSoFar d.length d).length / 64) := by
  rw [paddedSoFar_length, Nat.add_comm]; rfl

/-! ## The block buffer as the bytes arrive (R73, R74) -/

theorem getD_append_singleton (bytes : List Byte) (b : Byte) (n : Nat) :
    (bytes ++ [b]).getD n 0#8 = if n = bytes.length then b else bytes.getD n 0#8 := by
  rcases lt_trichotomy n bytes.length with h | h | h
  · rw [if_neg h.ne, List.getD_append _ _ _ _ h]
  · rw [if_pos h, h, List.getD_append_right _ _ _ _ le_rfl, Nat.sub_self, List.getD_cons_zero]
  · rw [if_neg h.ne', List.getD_eq_default _ _ (by simpa using h), List.getD_eq_default _ _ h.le]

section
variable {s : State} {bytes : List Byte} {k : Nat}

/-- A block buffer that holds the bytes of block `k` up to index `j` holds one more of them with the byte accepted there. -/
theorem readBlk_acceptByte_of_agree {j : Fin 64} (hj : 64 * k + j.val = bytes.length)
    (h : ∀ i : Fin 64, i.val < j.val → readBlk s i = bytes.getD (64 * k + i.val) 0#8) (b : Byte) {i : Fin 64}
    (hi : i.val ≤ j.val) : readBlk (acceptByte j b s) i = (bytes ++ [b]).getD (64 * k + i.val) 0#8 := by
  rw [readBlk_acceptByte, getD_append_singleton, ← hj]
  by_cases hij : i = j
  · rw [if_pos hij, if_pos (by rw [hij])]
  · rw [if_neg hij, if_neg (by omega), h i (by omega)]

theorem blk_eq_blockAt (h : ∀ j : Fin 64, readBlk s j = bytes.getD (64 * k + j.val) 0#8) : s.blk = blockAt bytes k :=
  Vector.ext fun j hj => (h ⟨j, hj⟩).trans (blockAt_get bytes k ⟨j, hj⟩).symm

end

/-! ## The progress of a hash, operation by operation -/

section
variable {rom : Rom} {s t : State} {len : Nat} {d : List Byte}

theorem hashProgress_of_idle (hp : s.phase = .idle) : HashProgress rom len d s := by
  simp only [HashProgress, hp]

/-- An accepted `START` begins the hash of a message of `MSGLEN` bytes: the padding is in the block, and a message of no
bytes is hashed already (R70, R103). -/
theorem hashProgress_startHash (rom : Rom) (s : State) : HashProgress rom s.msglen.toNat [] (startHash s) := by
  obtain ⟨hrun, hrem, -⟩ := startHash_frame s
  rcases startHash_cases s with ⟨h0, hp, -⟩ | ⟨-, hp, hfill, hblk⟩
  · simp only [HashProgress, hp, h0, hrun]
    exact ⟨rfl, rfl⟩
  · have hlt := padLen_lt s.msglen.toNat
    have hfill' : (startHash s).fill.toNat = padLen s.msglen.toNat := by
      rw [hfill, BitVec.toNat_ofNat, Nat.mod_eq_of_lt (by omega)]
    simp only [HashProgress, hp, hrun, hrem, hfill', paddedSoFar_length, List.length_nil, Nat.add_zero,
      Nat.zero_add, Nat.mod_eq_of_lt hlt, Nat.div_eq_of_lt hlt, chain_zero, true_and]
    intro j hj
    simp [readBlk, hblk, zeroPrefix_get, hj, paddedSoFar]

/-- An accepted byte extends the message; the one that completes a block hands over exactly that block (R73, R74). -/
theorem hashProgress_acceptByte (hs : MachineInv s) (hp : s.phase = .fill) (h : HashProgress rom len d s)
    {j : Fin 64} (hj : j.val = s.fill.toNat) (b : Byte) : HashProgress rom len (d ++ [b]) (acceptByte j b s) := by
  obtain ⟨hc, -⟩ := hs
  simp only [CountersOk, HashProgress, hp] at hc h
  obtain ⟨hlen, hfill, hrun, hbytes⟩ := h
  obtain ⟨-, hfill', hrem', hphase⟩ := acceptByte_spec j b s
  obtain ⟨hrun', -⟩ := acceptByte_frame j b s
  set bytes := paddedSoFar len d with hdef
  set k := bytes.length / 64
  have hsplit : 64 * k + j.val = bytes.length := by rw [hj, hfill]; exact Nat.div_add_mod _ _
  have hlong : (bytes ++ [b]).length = bytes.length + 1 := List.length_append
  have hcount : (d ++ [b]).length + (s.rem - 1#64).toNat = len := by
    rw [List.length_append, List.length_singleton]; bv_omega
  have hnext : (s.fill + 1#7).toNat = j.val + 1 := by have := j.isLt; bv_omega
  have hchain : chain rom (bytes ++ [b]) k = chain rom bytes k := chain_append rom bytes b k (by omega)
  have hread {i : Fin 64} (hi : i.val ≤ j.val) := readBlk_acceptByte_of_agree hsplit (by rwa [hj]) b hi
  by_cases hfull : s.fill + 1#7 = 64#7
  · rw [if_pos hfull] at hphase
    have h63 : j.val + 1 = 64 := by rw [← hnext, hfull]; rfl
    have hk : (bytes ++ [b]).length / 64 = k + 1 := by omega
    simp only [HashProgress, hphase, paddedSoFar_append, ← hdef, hk, hrem', hrun', hrun, Nat.add_sub_cancel, hchain]
    exact ⟨hcount, by omega, by omega, trivial, blk_eq_blockAt fun i => hread (by omega)⟩
  · rw [if_neg hfull, hp] at hphase
    have h64 : j.val + 1 ≠ 64 := fun e => hfull (BitVec.eq_of_toNat_eq (hnext.trans e))
    have hk : (bytes ++ [b]).length / 64 = k := by omega
    simp only [HashProgress, hphase, paddedSoFar_append, ← hdef, hk, hrem', hfill', hnext, hrun', hrun, hchain]
    exact ⟨hcount, by omega, trivial, fun i hi => hread (by omega)⟩

/-- A round is one more of its pass, and the eighth completes the pass (R84, R85). -/
theorem hashProgress_runRound {p : PassIx} (h : HashProgress Config.sboxRom len d s) (hp : s.phase = .round)
    (hpass : s.pass.toNat = passNat p) : HashProgress Config.sboxRom len d (runRound p s.round s) := by
  simp only [HashProgress, hp, passAt_of_toNat hpass] at h
  obtain ⟨hlen, hk, hmod, hsnap, hx, hrun⟩ := h
  obtain ⟨hrun', hround, hphase⟩ := runRound_spec p s.round s
  obtain ⟨hsnap', hx', -, -, hrem, -, hpass', -⟩ := runRound_frame p s.round s
  rw [hrun, roundOn_roundsOn] at hrun'
  by_cases hlast : s.round.toNat < 7
  · rw [if_pos hlast] at hphase hround
    have hcount : (s.round + 1#3).toNat = s.round.toNat + 1 := by bv_omega
    simp only [HashProgress, hphase, hp, hrem, hsnap', hx', hpass', passAt_of_toNat hpass, hround, hcount]
    exact ⟨hlen, hk, hmod, hsnap, hx, hrun'⟩
  · rw [if_neg hlast] at hphase
    have h7 : s.round.toNat = 7 := by omega
    rw [h7] at hrun'
    cases p with
    | p0 | p1 =>
      simp only [HashProgress, hphase, phaseAfterPass, hrem, hsnap', hx', hpass', passAt_of_toNat hpass]
      exact ⟨hlen, hk, hmod, hsnap, hx, hrun'⟩
    | p2 =>
      simp only [HashProgress, hphase, phaseAfterPass, hrem, hsnap']
      exact ⟨hlen, hk, hmod, hsnap, hx ▸ hrun'⟩

/-- Every step of CORE keeps the progress of the hash in its own message. -/
theorem CoreEffect.hashProgress (h : CoreEffect s t) (hs : MachineInv s) (hg : HashProgress Config.sboxRom len d s) :
    HashProgress Config.sboxRom len d t := by
  obtain ⟨-, hq, -⟩ := hs
  cases h with
  | wait => exact hg
  | load hp =>
    simp only [HashProgress, hp] at hg
    obtain ⟨hlen, hk, hmod, hrun, hblk⟩ := hg
    exact ⟨hlen, hk, hmod, hrun, congrArg loadblk hblk⟩
  | save hp =>
    simp only [HashProgress, hp] at hg
    obtain ⟨hlen, hk, hmod, hrun, hx⟩ := hg
    exact ⟨hlen, hk, hmod, hrun, hx, hrun⟩
  | round p hp hpass => exact hashProgress_runRound hg hp hpass
  | ksched hp =>
    simp only [SequencerOk, HashProgress, hp] at hq hg
    obtain ⟨hpass, hround⟩ := hq
    obtain ⟨hlen, hk, hmod, hsnap, hx, hrun⟩ := hg
    obtain ⟨p, p', hp₀, hp₁, hsucc⟩ := exists_next_pass hpass
    rw [passAt_of_toNat hp₀] at hx hrun
    simp only [HashProgress, State.withPhase_phase, State.withPhase_pass, State.withPass_pass, State.withPhase_round,
      State.withPass_round, State.withX_round, hround, passAt_of_toNat hp₁, passInput_succ hsucc, passEntry_succ hsucc]
    exact ⟨hlen, hk, hmod, hsnap, congrArg ks hx, hx ▸ hrun⟩
  | ffwd hp =>
    simp only [HashProgress, hp] at hg
    obtain ⟨hlen, hk, hmod, hsnap, hrun⟩ := hg
    have hblock : ffwdOn (runningOf s) (snapshotOf s) =
        chain Config.sboxRom (paddedSoFar len d) ((paddedSoFar len d).length / 64) := by
      rw [hrun, hsnap, ← compress_eq, ← chain_succ, Nat.sub_add_cancel hk]
    by_cases h0 : s.rem = 0#64
    · have hall : d.length = len := by rw [← hlen, h0]; rfl
      rw [← hall, ← tiger_eq_chain_paddedSoFar] at hblock
      simp only [HashProgress, h0, if_true, State.withPhase_phase]
      exact ⟨hall, hblock⟩
    · simp only [HashProgress, h0, if_false, State.withPhase_phase]
      exact ⟨hlen, hmod.symm, hblock, fun j hj => absurd hj (Nat.not_lt_zero _)⟩

/-- A host transaction that neither begins a message nor extends one keeps the progress, or abandons the hash (R96). -/
theorem hashProgress_of_host {i : Instr} (hi : isHostTransaction i = true) (h : exec i s = .next t)
    (hg : HashProgress rom len d s) (hdin : ∀ b, ¬(i = .wrDin b ∧ s.phase = .fill))
    (hstart : ¬(i = .wrCtrlStart ∧ busy s = false)) : HashProgress rom len d t := by
  rcases host_keeps hi h with rfl | ⟨rfl, hb, -⟩ | ⟨b, rfl, hp⟩ | ⟨h1, h2, h3, h4, h5, h6, h7, h8, h9⟩
  · cases h; exact hashProgress_of_idle rfl
  · exact absurd ⟨rfl, hb⟩ hstart
  · exact absurd ⟨rfl, hp⟩ (hdin b)
  · exact hashProgress_congr hg h1 h2 h3 h4 h5 h6 h7 h8 h9

/-- What a step answers is what `exec` answers for its instruction, the event taken off. -/
theorem exec_of_nextInstr {i : Instr} (h : step s = .next t) (hi : nextInstr s = some i) :
    ∃ es, exec i (s.withEvents es) = .next t := by
  rcases step_exec h with ⟨es, hev, -⟩ | ⟨es, i', -, hi', hx, -⟩
  · simp [nextInstr, fetch, hev] at hi
  · exact ⟨es, Option.some.inj (hi'.symm.trans hi) ▸ hx⟩

end

/-- Settles O56: an accepted byte, an accepted `START`, and every other step by the event it takes. -/
theorem stepKeepsHashProgress : Obligations.StepKeepsHashProgress := by
  intro s t len d hs hg h
  refine ⟨fun b hi hp => ?_, fun hi hidle => ?_, fun hdin hstart => ?_⟩
  · obtain ⟨es, hx⟩ := exec_of_nextInstr h hi
    rcases execWrDin_cases hx with ⟨hj, -, rfl⟩ | ⟨hp', -⟩
    · exact hashProgress_acceptByte (s := s.withEvents es) hs hp hg rfl b
    · exact absurd hp hp'
  · obtain ⟨es, hx⟩ := exec_of_nextInstr h hi
    have hb : busy (s.withEvents es) = false := (not_busy_iff s).2 hidle
    have hstart : exec .wrCtrlStart (s.withEvents es) = .next (startHash (s.withEvents es)) :=
      (HostEffect.start hb).exec_eq
    rw [hstart] at hx
    cases hx
    exact hashProgress_startHash Config.sboxRom (s.withEvents es)
  · rcases step_exec h with ⟨es, -, rfl⟩ | ⟨es, i, -, hi, hx, -, hhost | rfl⟩
    · exact hashProgress_of_idle rfl
    · exact hashProgress_of_host hhost hx hg (fun b ⟨e, hp⟩ => hdin b ⟨e ▸ hi, hp⟩)
        fun ⟨e, hb⟩ => hstart ⟨e ▸ hi, (not_busy_iff s).1 hb⟩
    · exact (coreEffect_of_exec (s := s.withEvents es) hx).hashProgress hs hg

end Sys2Proof.Machine

namespace Sys2Proof.Machine

/-! # The pass engine, and that no run faults

A round is the round function between two reorderings of the running state (R81, R84): its equation on the whole state and
its inverse are put together from those parts. A state of the invariant has an effect for each event that is admitted, so a step
from it never faults, and by induction no run from reset does (R86, R119). -/

/-! ## The round function (R78, R83) -/

/-- Settles O16: a table's ROM address is its two select bits and the index byte, so both sides are the same reads. -/
theorem roundFunctionReadsSboxes : Obligations.RoundFunctionReadsSboxes :=
  ⟨fun _ _ => ⟨rfl, rfl⟩, fun _ _ _ _ _ _ => rfl⟩

/-- The round function undone, given the inverse `n` of its multiplier: the S-box indices come from the `c`-role word, which
the round has already updated. -/
def roundFnInverse (rom : Rom) (r : Triple) (x n : Word) : Triple :=
  ⟨r.a + sboxTa rom r.c, r.b * n + sboxTb rom r.c, r.c ^^^ x⟩

theorem roundFnInverse_roundFn {m n : Word} (h : m * n = 1#64) (rom : Rom) (r : Triple) (x : Word) :
    roundFnInverse rom (roundFn rom r x m) x n = r := by
  simp [roundFnInverse, roundFn, BitVec.mul_assoc, h]

theorem roundFn_roundFnInverse {m n : Word} (h : m * n = 1#64) (rom : Rom) (r : Triple) (x : Word) :
    roundFn rom (roundFnInverse rom r x n) x m = r := by
  have h' : n * m = 1#64 := by rw [BitVec.mul_comm, h]
  simp [roundFnInverse, roundFn, BitVec.mul_assoc, h']

/-- The inverse of a pass's multiplier modulo 2^64: 5, 7 and 9 are odd (R80). -/
def passMulInverse : PassIx → Word
  | .p0 => 0xCCCCCCCCCCCCCCCD#64
  | .p1 => 0x6DB6DB6DB6DB6DB7#64
  | .p2 => 0x8E38E38E38E38E39#64

theorem passMul_mul_passMulInverse (p : PassIx) : passMul p * passMulInverse p = 1#64 := by
  cases p <;> decide

theorem roundFn_bijective (rom : Rom) (p : PassIx) (x : Word) :
    Function.Bijective fun r => roundFn rom r x (passMul p) :=
  Function.bijective_iff_has_inverse.2 ⟨fun r => roundFnInverse rom r x (passMulInverse p),
    fun r => roundFnInverse_roundFn (passMul_mul_passMulInverse p) rom r x,
    fun r => roundFn_roundFnInverse (passMul_mul_passMulInverse p) rom r x⟩

theorem toRoles_bijective (r : Roles) : Function.Bijective (toRoles r) :=
  Function.bijective_iff_has_inverse.2 ⟨fromRoles r, fromRoles_toRoles r, toRoles_fromRoles r⟩

theorem fromRoles_bijective (r : Roles) : Function.Bijective (fromRoles r) :=
  Function.bijective_iff_has_inverse.2 ⟨toRoles r, toRoles_fromRoles r, fromRoles_toRoles r⟩

/-- Settles O50: take the role words, apply the round function, put the role words back. -/
theorem roundIsBijective : Obligations.RoundIsBijective := fun rom p i x =>
  let r := rolesOf (8 * passNat p + i.toNat)
  (fromRoles_bijective r).comp ((roundFn_bijective rom p (slotOf x i)).comp (toRoles_bijective r))

/-! ## The round micro-ops (R80, R81, R84) -/

theorem rolesOf_of_mod_zero {k : Nat} (h : k % 3 = 0) : rolesOf k = .abc := by simp [rolesOf, h]

theorem rolesOf_of_mod_one {k : Nat} (h : k % 3 = 1) : rolesOf k = .bca := by simp [rolesOf, h]

theorem rolesOf_of_mod_two {k : Nat} (h : k % 3 = 2) : rolesOf k = .cab := by simp [rolesOf, h]

theorem phaseAfterPass_eq (p : PassIx) : phaseAfterPass p = if passNat p < 2 then .ksched else .ffwd := by
  cases p <;> rfl

/-- A round as one update of the state: the running state, and the sequencer (R84). -/
theorem runRound_eq (p : PassIx) (i : BitVec 3) (s : State) :
    runRound p i s = { s.withRunning (roundOn Config.sboxRom p i s.x (runningOf s)) with
      round := if i = 7#3 then 0#3 else i + 1#3
      phase := if i = 7#3 then (if passNat p < 2 then .ksched else .ffwd) else s.phase } := by
  rw [runRound, advanceRound, phaseAfterPass_eq]
  by_cases h : i = 7#3
  · rw [if_neg (by rw [h]; decide), if_pos h, if_pos h]; rfl
  · rw [if_pos (by bv_omega), if_neg h, if_neg h]; rfl

/-- The three round micro-ops are one round each of the pass they name, with its multiplier (R80). -/
theorem exec_roundInstr {i : BitVec 3} {n : Nat} {instr : Instr} {m : Word}
    (h : (n, instr, m) ∈ [(0, .roundP0 i, 5#64), (1, .roundP1 i, 7#64), (2, .roundP2 i, 9#64)]) :
    ∃ p, n = passNat p ∧ m = passMul p ∧ ∀ s, exec instr s = .next (runRound p i s) := by
  simp only [List.mem_cons, Prod.mk.injEq, List.not_mem_nil, or_false] at h
  obtain ⟨rfl, rfl, rfl⟩ | ⟨rfl, rfl, rfl⟩ | ⟨rfl, rfl, rfl⟩ := h
  exacts [⟨.p0, rfl, rfl, fun _ => rfl⟩, ⟨.p1, rfl, rfl, fun _ => rfl⟩, ⟨.p2, rfl, rfl, fun _ => rfl⟩]

/-- Settles O17: the micro-op is a round of its pass, and the residue of `8p + i` picks the roles. -/
theorem roundUpdatesRoleWords : Obligations.RoundUpdatesRoleWords := by
  refine ⟨fun i => ⟨decodeUop_roundP0 i, decodeUop_roundP1 i, decodeUop_roundP2 i⟩, fun s i n instr m h => ?_⟩
  obtain ⟨p, rfl, rfl, hexec⟩ := exec_roundInstr h
  simp only [hexec, runRound_eq, roundOn]
  refine ⟨fun hk => ?_, fun hk => ?_, fun hk => ?_⟩
  · rw [rolesOf_of_mod_zero hk]; rfl
  · rw [rolesOf_of_mod_one hk]; rfl
  · rw [rolesOf_of_mod_two hk]; rfl

/-! ## No state of the invariant is at a fault (R86, R119) -/

/-- Only phase ROUND needs something of the state: that `PASS` is a pass (R22, R86). -/
theorem exists_coreEffect {s : State} (hpass : s.phase = .round → s.pass.toNat ≤ 2) : ∃ t, CoreEffect s t := by
  cases hp : s.phase with
  | idle | fill | done => exact ⟨_, .wait (by simp [hp])⟩
  | load => exact ⟨_, .load hp⟩
  | save => exact ⟨_, .save hp⟩
  | ksched => exact ⟨_, .ksched hp⟩
  | ffwd => exact ⟨_, .ffwd hp⟩
  | round =>
    rcases pass_cases s.pass with ⟨p, hq⟩ | hq
    · exact ⟨_, .round p hp hq⟩
    · exact absurd (hpass hp) (by rw [hq]; decide)

/-- In phase ROUND the invariant keeps `PASS` off the reserved value (R24). -/
theorem MachineInv.pass_le {s : State} (h : MachineInv s) (hp : s.phase = .round) : s.pass.toNat ≤ 2 := by
  obtain ⟨-, hq, -⟩ := h
  simpa only [SequencerOk, hp] using hq

/-- CORE's micro-op answers in every state of the invariant, whatever is pending. -/
theorem MachineInv.exists_exec_uop {s : State} (h : MachineInv s) (es : List Event) :
    ∃ t, exec (decodeUop (uopOf s)) (s.withEvents es) = .next t := by
  obtain ⟨t, ht⟩ := exists_coreEffect (s := s.withEvents es) h.pass_le
  exact ⟨t, ht.exec_eq⟩

/-- Settles O18. The micro-op of an invariant state answers a next state, which the reserved one does not. -/
theorem reservedRoundFaults : Obligations.ReservedRoundFaults := by
  refine ⟨fun i => by simp [decodeUop], fun _ => rfl, fun s hp hpass he hev => ?_, fun s hs hrsvd => ?_⟩
  · simp only [step_idle he hev, decodeUop_uopOf, hp, hpass]; rfl
  · obtain ⟨t, ht⟩ := hs.exists_exec_uop s.events
    rw [hrsvd] at ht
    cases ht

/-- From a state of the invariant every event has a next state, but an access that is not admitted (R45). -/
theorem MachineInv.step_next_or_refused {s : State} (h : MachineInv s) :
    (∃ t, step s = .next t) ∨ ∃ r, step s = .refused r := by
  have ⟨_, _, he, _⟩ := h
  match hev : s.events with
  | [] => exact .inl (step_idle he hev ▸ h.exists_exec_uop s.events)
  | .core :: es => exact .inl (step_core he hev ▸ h.exists_exec_uop es)
  | .reset :: es => exact .inl ⟨_, step_reset hev⟩
  | .host acc :: es =>
    by_cases hw : acc.width = .w64
    · by_cases ho : (reqOff acc.req).toNat % 8 = 0
      · obtain ⟨t, ht, -⟩ := admittedAccessAlwaysRuns s acc es h hev hw ho
        exact .inl ⟨t, ht⟩
      · exact .inr ⟨_, step_misaligned he hev hw (decodeHost_of_misaligned ho)⟩
    · exact .inr ⟨_, step_narrow he hev hw⟩

/-- Settles O46: the step answers a next state or a refusal. -/
theorem invariantStateNeverFaults : Obligations.InvariantStateNeverFaults := by
  intro s f hs hf
  rcases hs.step_next_or_refused with ⟨t, h⟩ | ⟨r, h⟩ <;> cases hf.symm.trans h

/-- No run from a state of the invariant faults: the invariant is kept, and no step from it faults. -/
theorem MachineInv.safeFor {s : State} (h : MachineInv s) (n : Nat) : SafeFor s n := by
  induction n generalizing s with
  | zero => intro f hf; cases hf
  | succ n ih =>
    intro f
    rcases h.step_next_or_refused with ⟨t, ht⟩ | ⟨r, hr⟩
    · rw [runSteps_next ht]
      exact ih (stepKeepsInvariant s t h ht) f
    · simp [runSteps, hr]

/-- Settles O47: the reset state meets the invariant with any events pending. -/
theorem noRunFromResetFaults : Obligations.NoRunFromResetFaults := fun es n =>
  (invariantHoldsAtReset es).safeFor n

end Sys2Proof.Machine

namespace Sys2Proof.Machine

/-! # The key scheduler (42_key_schedule.md) -/

/-- A working buffer is the list of its eight slots (R88). -/
theorem eq_slots (x : Vector Word 8) : x = #v[x[0], x[1], x[2], x[3], x[4], x[5], x[6], x[7]] := by
  ext i hi
  interval_cases i <;> rfl

/-- Settles O19: over the eight slots the assignments compute, and the result of each update is its line of `ks`. -/
theorem keyScheduleIsSixteenUpdates : Obligations.KeyScheduleIsSixteenUpdates := by
  intro input
  rw [eq_slots input]
  simp [ks, shiftLeftNot, shiftRightNot]

/-- XOR with a word, which undoes itself (R89). -/
def xorRight (v : Word) : Equiv.Perm Word :=
  Function.Involutive.toPerm (· ^^^ v) fun w => by simp

@[simp] theorem xorRight_apply (v w : Word) : xorRight v w = w ^^^ v := rfl

/-- One line of R88, `x[j] <- op (f x) x[j]`, undone by the opposite operation: the operand `f x` is computed only from
words other than `x[j]` (R89). -/
def updateWord (j : Fin 8) (op : Word → Equiv.Perm Word) (f : Vector Word 8 → Word)
    (hf : ∀ x v, f (x.set j v) = f x := by simp) : Equiv.Perm (Vector Word 8) where
  toFun x := x.set j (op (f x) x[j])
  invFun x := x.set j ((op (f x)).symm x[j])
  left_inv x := by simp [hf]
  right_inv x := by simp [hf]

@[simp] theorem updateWord_apply {j : Fin 8} {op : Word → Equiv.Perm Word} {f : Vector Word 8 → Word}
    (hf : ∀ x v, f (x.set j v) = f x) (x : Vector Word 8) : updateWord j op f hf x = x.set j (op (f x) x[j]) := rfl

/-- The sixteen lines of R88. -/
def ksUpdates : List (Equiv.Perm (Vector Word 8)) :=
  [updateWord 0 Equiv.subRight (fun x => x[7] ^^^ 0xA5A5A5A5A5A5A5A5#64),
    updateWord 1 xorRight (fun x => x[0]),
    updateWord 2 Equiv.addRight (fun x => x[1]),
    updateWord 3 Equiv.subRight (fun x => x[2] ^^^ shiftLeftNot x[1]),
    updateWord 4 xorRight (fun x => x[3]),
    updateWord 5 Equiv.addRight (fun x => x[4]),
    updateWord 6 Equiv.subRight (fun x => x[5] ^^^ shiftRightNot x[4]),
    updateWord 7 xorRight (fun x => x[6]),
    updateWord 0 Equiv.addRight (fun x => x[7]),
    updateWord 1 Equiv.subRight (fun x => x[0] ^^^ shiftLeftNot x[7]),
    updateWord 2 xorRight (fun x => x[1]),
    updateWord 3 Equiv.addRight (fun x => x[2]),
    updateWord 4 Equiv.subRight (fun x => x[3] ^^^ shiftRightNot x[2]),
    updateWord 5 xorRight (fun x => x[4]),
    updateWord 6 Equiv.addRight (fun x => x[5]),
    updateWord 7 Equiv.subRight (fun x => x[6] ^^^ 0x0123456789ABCDEF#64)]

/-- The key schedule as one permutation: the updates one after another. -/
def ksPerm : Equiv.Perm (Vector Word 8) := ksUpdates.foldl Equiv.trans (Equiv.refl _)

/-- Over the eight slots the composed updates compute, line by line as `ks` does. -/
theorem coe_ksPerm : ⇑ksPerm = ks := by
  funext x
  rw [eq_slots x]
  simp [ksPerm, ksUpdates, ks]

/-- Settles O51: sixteen permutations of the working buffer, one after another. -/
theorem keyScheduleIsBijective : Obligations.KeyScheduleIsBijective := by
  unfold Obligations.KeyScheduleIsBijective
  rw [← coe_ksPerm]
  exact ksPerm.bijective

/-- Settles O20: the micro-op word decodes by its phase, and a `PASS` of 0 or 1 counts up without wrapping. -/
theorem kschedSchedulesBuffer : Obligations.KschedSchedulesBuffer :=
  ⟨fun q r => by simp [decodeUop], fun s hp => ⟨s.pass + 1#2, by bv_omega, rfl⟩⟩

end Sys2Proof.Machine

namespace Sys2Proof.Machine

/-! # The feedforward, the sequencer and the digest

The equations of `FFWD` and of the waiting rows (R92 to R94) are definitional. What a step does to the phase and to a
finished digest (R95, R96, R99) is read off `host_keeps` and the effects of the micro-ops. The 29 micro-ops of a block
(R97) are run pass by pass, with one predicate for the state at either end of a pass. -/

/-! ## The micro-op words (R92 to R94) -/

/-- Settles O21: the micro-op word decodes by its phase, and `FFWD` is its seven writes. -/
theorem ffwdCombinesAndCompletes : Obligations.FfwdCombinesAndCompletes :=
  ⟨fun q r => by simp [decodeUop], fun _ => rfl⟩

/-- Settles O22: the micro-op words decode by their phases, and each of the three rows answers its own state. -/
theorem waitingRowsChangeNothing : Obligations.WaitingRowsChangeNothing :=
  ⟨fun q r => by simp [decodeUop], fun _ => ⟨rfl, rfl, rfl⟩⟩

/-! ## What the host and CORE do to the phase (R95, R96, R99) -/

/-- Settles O41: in a block-processing phase no `START` and no byte is accepted, and all else but `ABORT` keeps them. -/
theorem onlyAbortDisturbsBlock : Obligations.OnlyAbortDisturbsBlock := by
  intro i s t hi ha hp h
  rcases host_keeps hi h with rfl | ⟨-, hb, -⟩ | ⟨-, -, hfill⟩ | ⟨hphase, hpass, hround, hrun, hsnap, hx, -⟩
  · exact absurd rfl ha
  · rcases (not_busy_iff s).1 hb with h | h <;> simp [h] at hp
  · simp [hfill] at hp
  · simp [hphase, hpass, hround, runningOf_eq_iff.1 hrun, snapshotOf_eq_iff.1 hsnap, hx]

/-- Settles O42: in DONE a transaction but the two excluded keeps the phase and the running state, and CORE waits. -/
theorem digestStableInDone : Obligations.DigestStableInDone := by
  intro s t hp h hstart habort hreset
  rcases step_exec h with ⟨es, hev, -⟩ | ⟨es, i, -, hi, hx, -, hhost | rfl⟩
  · exact absurd hev (hreset es)
  · rcases host_keeps hhost hx with rfl | ⟨rfl, -⟩ | ⟨-, -, hfill⟩ | ⟨hphase, -, -, hrun, -⟩
    · exact absurd hi habort
    · exact absurd hi hstart
    · cases hp.symm.trans hfill
    · exact ⟨hphase.trans hp, runningOf_eq_iff.1 hrun⟩
  · cases coreEffect_of_exec (s := s.withEvents es) hx with
    | wait => exact ⟨hp, rfl, rfl, rfl⟩
    | load hp' | save hp' | round _ hp' | ksched hp' | ffwd hp' => cases hp.symm.trans hp'

section
variable {s t : State} {i : Instr}

/-- The phases CORE can go to from a phase: the waiting ones stay, the others follow a block's sequence (R94, R95). -/
def nextPhases : Phase → List Phase
  | .idle => [.idle]
  | .fill => [.fill]
  | .done => [.done]
  | .load => [.save]
  | .save => [.round]
  | .round => [.round, .ksched, .ffwd]
  | .ksched => [.round]
  | .ffwd => [.fill, .done]

theorem load_notMem_nextPhases (p : Phase) : .load ∉ nextPhases p := by cases p <;> decide

theorem fill_mem_nextPhases {p : Phase} (h : .fill ∈ nextPhases p) : p = .fill ∨ p = .ffwd := by
  revert h; cases p <;> decide

theorem CoreEffect.phase_mem (h : CoreEffect s t) : t.phase ∈ nextPhases s.phase := by
  cases h with
  | wait hp => rcases hp with hp | hp | hp <;> simp [hp, nextPhases]
  | load hp | save hp | ksched hp => simp [hp, nextPhases]
  | round p hp =>
    obtain ⟨-, -, hphase⟩ := runRound_spec p s.round s
    rw [hphase, hp]
    split <;> cases p <;> decide
  | ffwd hp =>
    rw [State.withPhase_phase, hp]
    split <;> decide

/-- A transaction keeps the phase, abandons the hash, begins one outside a block, or completes the block (R96). -/
theorem HostEffect.phase_cases (h : HostEffect s i t) :
    t.phase = s.phase ∨ t.phase = .idle ∨ (busy s = false ∧ (t.phase = .fill ∨ t.phase = .done)) ∨
      (t.phase = .load ∧ s.phase = .fill ∧ s.fill = 63#7 ∧ ∃ b, i = .wrDin b) := by
  cases h with
  | nop | clrerr | setLength | answer => exact .inl rfl
  | raise => exact .inl (by simp)
  | digest f => rcases returnDigestWord_eq (f (runningOf s)) s with ⟨-, e⟩ | ⟨-, e⟩ <;> exact .inl (by simp [e])
  | abort => exact .inr (.inl rfl)
  | start hb => rcases startHash_cases s with ⟨-, hp, -⟩ | ⟨-, hp, -⟩ <;> simp [hb, hp]
  | accept b j _ hp =>
    obtain ⟨-, -, -, hphase⟩ := acceptByte_spec j b s
    by_cases hfull : s.fill + 1#7 = 64#7
    · rw [if_pos hfull] at hphase
      exact .inr (.inr (.inr ⟨hphase, hp, by bv_omega, b, rfl⟩))
    · rw [if_neg hfull] at hphase
      exact .inl hphase

end

/-- Settles O43, by the event: a reset goes to IDLE; a transaction goes to LOAD only as the last byte of a block, and to
FILL from outside a block; CORE never goes to LOAD, and from a block's phase to FILL only by `FFWD`. -/
theorem blocksAreProcessedInOrder : Obligations.BlocksAreProcessedInOrder := by
  intro s t h
  rcases step_exec h with ⟨es, -, rfl⟩ | ⟨es, i, -, hi, hx, -, hhost | rfl⟩
  · simp [State.reset]
  · have hcases := (hostEffect_of_exec hhost hx).phase_cases
    rw [not_busy_iff] at hcases
    simp only [State.withEvents_phase, State.withEvents_fill] at hcases
    rcases hcases with hkeep | hidle | ⟨hs, ht⟩ | ⟨hload, hfill, h63, b, rfl⟩
    · exact ⟨fun ht hs => absurd (hkeep ▸ ht) hs, fun ht hs => by simp [← hkeep, ht] at hs⟩
    · simp [hidle]
    · rcases hs with hs | hs <;> rcases ht with ht | ht <;> simp [hs, ht]
    · simp [hload, hfill, h63, hi]
  · have hmem : t.phase ∈ nextPhases s.phase := (coreEffect_of_exec (s := s.withEvents es) hx).phase_mem
    refine ⟨fun ht => absurd (ht ▸ hmem) (load_notMem_nextPhases s.phase), fun ht hs => ?_⟩
    rcases fill_mem_nextPhases (ht ▸ hmem) with hp | hp
    · simp [hp] at hs
    · exact ⟨hp, by rw [hi, decodeUop_uopOf, hp]⟩

/-! ## One block, pass by pass (R97) -/

section
variable {s s₀ : State} {p p' : PassIx} {r : Triple}

/-- CORE processes, with no event pending, the block that was in LOAD in the state `s₀`. It has come to phase `ph` at the
start or the end of pass `p`, with the running state `r`. -/
structure AtPass (s₀ : State) (p : PassIx) (ph : Phase) (r : Triple) (s : State) : Prop where
  phase : s.phase = ph
  running : runningOf s = r
  pass : s.pass.toNat = passNat p
  round : s.round = 0#3
  x : s.x = passInput s₀.blk p
  snapshot : snapshotOf s = runningOf s₀
  rem : s.rem = s₀.rem
  errcode : s.errcode = s₀.errcode
  events : s.events = []

/-- The block of the state `s₀` is processed in `t` (R93, R97). -/
structure BlockDone (s₀ t : State) : Prop where
  running : runningOf t = compress Config.sboxRom (runningOf s₀) s₀.blk
  phase : t.phase = if s₀.rem = 0#64 then .done else .fill
  fill : t.fill = 0#7
  rem : t.rem = s₀.rem
  errcode : t.errcode = s₀.errcode

/-- `LOAD` and `SAVE` lead to the first pass (R76, R77). -/
theorem exists_atPass_p0 (he : ErrorCodeOk s) (hp : s.phase = .load) (hev : s.events = []) :
    ∃ t, runSteps 2 s = .next t ∧ AtPass s .p0 .round (runningOf s) t := by
  refine ⟨_, runSteps_trans (runSteps_one (step_load he hev hp)) (runSteps_one (step_save he hev rfl)), ?_⟩
  constructor <;> simp [passInput, passNat, hev]

theorem AtPass.errorCodeOk {ph : Phase} (h : AtPass s₀ p ph r s) (he : ErrorCodeOk s₀) : ErrorCodeOk s := by
  rwa [ErrorCodeOk, h.errcode]

/-- The eight rounds of a pass (R85). -/
theorem AtPass.exists_rounds (h : AtPass s₀ p .round r s) (he : ErrorCodeOk s₀) :
    ∃ t, runSteps 8 s = .next t ∧
      AtPass s₀ p (phaseAfterPass p) (passOn Config.sboxRom p (passInput s₀.blk p) r) t := by
  obtain ⟨t, hrun, hphase, hround, hpass, hx, hsnap, hev, herr, hrem, hr⟩ :=
    pass_run (h.errorCodeOk he) h.events h.phase h.pass h.round
  rw [h.x, h.running] at hr
  exact ⟨t, hrun, hphase, hr, hpass ▸ h.pass, hround, hx.trans h.x, hsnap.trans h.snapshot, hrem.trans h.rem,
    herr.trans h.errcode, hev⟩

/-- The key schedule leads to the next pass (R90). -/
theorem AtPass.exists_ksched (h : AtPass s₀ p .ksched r s) (he : ErrorCodeOk s₀) (hp' : passNat p' = passNat p + 1) :
    ∃ t, runSteps 1 s = .next t ∧ AtPass s₀ p' .round r t := by
  have hle : passNat p' ≤ 2 := by cases p' <;> decide
  have hpass : (s.pass + 1#2).toNat = passNat p' := by have := h.pass; bv_omega
  have hx : ks s.x = passInput s₀.blk p' := by rw [passInput_succ hp', h.x]
  exact ⟨_, runSteps_one (step_ksched (h.errorCodeOk he) h.events h.phase), rfl, h.running, hpass, h.round, hx,
    h.snapshot, h.rem, h.errcode, h.events⟩

/-- `FFWD` completes the block (R92, R93). -/
theorem AtPass.exists_ffwd (h : AtPass s₀ p .ffwd r s) (he : ErrorCodeOk s₀)
    (hr : ffwdOn r (runningOf s₀) = compress Config.sboxRom (runningOf s₀) s₀.blk) :
    ∃ t, runSteps 1 s = .next t ∧ BlockDone s₀ t := by
  refine ⟨_, runSteps_one (step_ffwd (h.errorCodeOk he) h.events h.phase), ?_, ?_, rfl, h.rem, h.errcode⟩
  · simp [h.running, h.snapshot, hr]
  · simp [h.rem]

/-- The 29 micro-ops of a block: `LOAD`, `SAVE`, three passes with the key schedule between them, `FFWD` (R94, R97). -/
theorem exists_blockDone (he : ErrorCodeOk s) (hp : s.phase = .load) (hev : s.events = []) :
    ∃ t, runSteps 29 s = .next t ∧ BlockDone s t := by
  obtain ⟨u₀, hu₀, h₀⟩ := exists_atPass_p0 he hp hev
  obtain ⟨v₀, hv₀, h₀⟩ := h₀.exists_rounds he
  obtain ⟨u₁, hu₁, h₁⟩ := h₀.exists_ksched (p' := .p1) he rfl
  obtain ⟨v₁, hv₁, h₁⟩ := h₁.exists_rounds he
  obtain ⟨u₂, hu₂, h₂⟩ := h₁.exists_ksched (p' := .p2) he rfl
  obtain ⟨v₂, hv₂, h₂⟩ := h₂.exists_rounds he
  obtain ⟨t, ht, hdone⟩ := h₂.exists_ffwd he rfl
  have h9 := runSteps_trans (runSteps_trans hu₀ hv₀) hu₁
  have h18 := runSteps_trans (runSteps_trans h9 hv₁) hu₂
  exact ⟨t, runSteps_trans (runSteps_trans h18 hv₂) ht, hdone⟩

end

/-- Settles O55: the first clause is the definition of `compress`, and the second is the run of the block. -/
theorem blockOf29StepsCompresses : Obligations.BlockOf29StepsCompresses := by
  refine ⟨fun _ _ _ => rfl, fun s he hp hev => ?_⟩
  obtain ⟨t, hrun, h⟩ := exists_blockDone he hp hev
  exact ⟨t, hrun, h.running, h.phase, h.fill, h.rem, h.errcode⟩

/-! ## The digest text (R100) -/

theorem hexDigit_eq : ∀ d : BitVec 4,
    ['0', '1', '2', '3', '4', '5', '6', '7', '8', '9', 'a', 'b', 'c', 'd', 'e', 'f'][d.toNat]? = some (hexDigit d) := by
  decide

theorem hexDigit_injective : Function.Injective hexDigit := by
  unfold Function.Injective
  decide

theorem hex16_length (w : Word) : (hex16 w).length = 16 := by simp [hex16]

theorem hex16_get (w : Word) (k : Fin 16) :
    (hex16 w)[k.val]? = some (hexDigit (w.extractLsb' (60 - 4 * k.val) 4)) := by
  simp [hex16]

/-- Digit `15 - i / 4` shows bit `i` of the word. -/
theorem hex16_injective : Function.Injective hex16 := by
  intro v w h
  refine BitVec.eq_of_getLsbD_eq fun i hi => ?_
  have hdigit (k : Fin 16) : v.extractLsb' (60 - 4 * k.val) 4 = w.extractLsb' (60 - 4 * k.val) 4 := by
    have hk := hex16_get v k
    rw [h, hex16_get] at hk
    exact (hexDigit_injective (Option.some.inj hk)).symm
  have hbit := congrArg (BitVec.getLsbD · (i % 4)) (hdigit ⟨15 - i / 4, by omega⟩)
  have hpos : 60 - 4 * (15 - i / 4) + i % 4 = i := by omega
  simpa [hpos, Nat.mod_lt] using hbit

theorem digestText_injective : Function.Injective digestText := by
  rintro ⟨ta, tb, tc⟩ ⟨ua, ub, uc⟩ h
  obtain ⟨hab, hc⟩ := List.append_inj' h (by simp only [hex16_length])
  obtain ⟨ha, hb⟩ := List.append_inj' hab (by simp only [hex16_length])
  rw [Triple.mk.injEq]
  exact ⟨hex16_injective ha, hex16_injective hb, hex16_injective hc⟩

/-- Settles O54: the digits one by one, and from them the digest; the empty message has no block, so its digest is `IV`. -/
theorem digestTextIsHex : Obligations.DigestTextIsHex := by
  refine ⟨fun t => ⟨rfl, by simp [digestText, hex16_length]⟩, fun w k => ⟨hex16_length w, ?_⟩,
    fun _ _ h => digestText_injective h, fun rom => ?_⟩
  · rw [hex16_get, hexDigit_eq]
  · have hempty : tiger rom [] = iv := chain_zero rom _
    rw [hempty]
    decide

end Sys2Proof.Machine

namespace Sys2Proof.Machine

/-! # `HASH m` (R68, R98)

The program is run piece by piece: the two lines that begin the hash, a byte, a wait for a block, a digest read. Each
piece keeps `Hashing`, the machine's invariant with the progress of the hash, so that in DONE the running state is the
digest of the bytes sent. -/

/-! ## Runs -/

/-- Some number of steps takes the one state to the other. -/
def Reaches (s t : State) : Prop := ∃ n, runSteps n s = .next t

section
variable {s t u : State}

theorem Reaches.refl (s : State) : Reaches s s := ⟨0, rfl⟩

theorem Reaches.trans : Reaches s t → Reaches t u → Reaches s u
  | ⟨_, h⟩, ⟨_, k⟩ => ⟨_, runSteps_trans h k⟩

theorem Reaches.of_step (h : step s = .next t) : Reaches s t := ⟨1, runSteps_one h⟩

end

/-! ## CORE steps of a program (R50, R94) -/

section
variable {s t : State} {es : List Event}

theorem runRound_withEvents (p : PassIx) (i : BitVec 3) (s : State) (es : List Event) :
    runRound p i (s.withEvents es) = (runRound p i s).withEvents es := by
  unfold runRound advanceRound
  split <;> rfl

/-- A micro-op neither reads nor changes the pending events. -/
theorem CoreEffect.withEvents (h : CoreEffect s t) (es : List Event) :
    CoreEffect (s.withEvents es) (t.withEvents es) := by
  cases h with
  | wait hp => exact .wait hp
  | load hp => exact .load (s := s.withEvents es) hp
  | save hp => exact .save (s := s.withEvents es) hp
  | round p hp hpass => exact runRound_withEvents p s.round s es ▸ .round (s := s.withEvents es) p hp hpass
  | ksched hp => exact .ksched (s := s.withEvents es) hp
  | ffwd hp => exact .ffwd (s := s.withEvents es) hp

theorem CoreEffect.frame (h : CoreEffect s t) : t.errcode = s.errcode ∧ t.events = s.events := by
  cases h with
  | wait | load | save | ksched | ffwd => exact ⟨rfl, rfl⟩
  | round p =>
    obtain ⟨-, -, -, -, -, -, -, herr, hev, -⟩ := runRound_frame p s.round s
    exact ⟨herr, hev⟩

/-- With no event pending a step is CORE's. -/
theorem coreEffect_of_step_idle (hev : s.events = []) (h : step s = .next t) :
    errorCodeReserved s.errcode = false ∧ CoreEffect s t := by
  rcases step_cases h with ⟨-, he, hx⟩ | ⟨es, hev', -⟩ | ⟨acc, es, i, hev', -⟩ | ⟨es, hev', -⟩
  · exact ⟨he, coreEffect_of_exec hx⟩
  all_goals cases hev.symm.trans hev'

/-- A run with no event pending keeps what every micro-op keeps, and it is also the run of as many CORE steps of a
program. -/
theorem core_run {P : State → Prop} (hP : ∀ {s t}, CoreEffect s t → P s → P t) {n : Nat} (hev : s.events = [])
    (h : runSteps n s = .next t) (hs : P s) :
    P t ∧ ∀ es, runSteps n (s.withEvents (List.replicate n Event.core ++ es)) = .next (t.withEvents es) := by
  induction n generalizing s with
  | zero => cases h; exact ⟨hs, fun _ => rfl⟩
  | succ n ih =>
    cases hu : step s with
    | next u =>
      obtain ⟨he, hc⟩ := coreEffect_of_step_idle hev hu
      obtain ⟨-, hev'⟩ := hc.frame
      rw [runSteps_next hu] at h
      obtain ⟨ht, hrun⟩ := ih (hev'.trans hev) h (hP hc hs)
      refine ⟨ht, fun es => ?_⟩
      have hstep : step (s.withEvents (List.replicate (n + 1) Event.core ++ es)) =
          .next (u.withEvents (List.replicate n Event.core ++ es)) :=
        step_iff.2 (.core _ (.inr rfl) he (hc.withEvents _))
      rw [runSteps_next hstep, hrun]
    | fault => simp [runSteps, hu] at h
    | refused => simp [runSteps, hu] at h

end

/-! ## The host's lines (R67) -/

section
variable {s : State} {es : List Event} {r : HostReg}

theorem step_wr {v : Word} (he : ErrorCodeOk s) (hev : s.events = wr r v :: es) (hr : (regOffset r).toNat % 8 = 0) :
    step s = exec (decodeWrite (regOffset r) v) (s.withEvents es) :=
  step_host he hev rfl (decodeHost_write hr v)

theorem step_rd (he : ErrorCodeOk s) (hev : s.events = rd r :: es) (hr : (regOffset r).toNat % 8 = 0) :
    step s = exec (decodeRead (regOffset r)) (s.withEvents es) :=
  step_host he hev rfl (decodeHost_read hr 0#64)

theorem step_wrMsglen {v : Word} (he : ErrorCodeOk s) (hb : busy s = false) (hev : s.events = wr .msglen v :: es) :
    step s = .next ((s.withEvents es).withMsglen v) :=
  (step_wr he hev rfl).trans (HostEffect.setLength (s := s.withEvents es) v hb).exec_eq

theorem step_cmdStart (he : ErrorCodeOk s) (hb : busy s = false) (hev : s.events = cmdStart :: es) :
    step s = .next (startHash (s.withEvents es)) :=
  (step_wr he hev rfl).trans (HostEffect.start (s := s.withEvents es) hb).exec_eq

theorem step_rdStatus (he : ErrorCodeOk s) (hev : s.events = rd .status :: es) :
    step s = .next (returnToHost (statusWord (s.withEvents es)) (s.withEvents es)) :=
  step_rd he hev rfl

/-- In DONE a digest read returns its word of the running state (R34, R112 to R114). -/
theorem step_rdDigest {f : Triple → Word} (he : ErrorCodeOk s) (hp : s.phase = .done) (hev : s.events = rd r :: es)
    (hr : (regOffset r).toNat % 8 = 0) (hf : digestOf (decodeRead (regOffset r)) = some f) :
    step s = .next (returnToHost (f (runningOf s)) (s.withEvents es)) :=
  (step_rd he hev hr).trans ((exec_of_digestOf hf _).trans (congrArg Host.Outcome.next (if_pos hp)))

end

/-! ## The pieces of the program -/

/-- A hash of a message of `len` bytes runs without an error, and the bytes `d` of it have been accepted. -/
structure Hashing (len : Nat) (d : List Byte) (s : State) : Prop where
  inv : MachineInv s
  progress : HashProgress Config.sboxRom len d s
  noError : s.errcode = 0#4

/-- The phase after `j` accepted bytes of a message of `len`, before CORE processes the block they may complete (R73). -/
def phaseAfterBytes (len j : Nat) : Phase := if 0 < j ∧ (padLen len + j) % 64 = 0 then .load else .fill

section
variable {len : Nat} {d : List Byte} {s t : State} {es : List Event} {b : Byte}

theorem Hashing.errorCodeOk (h : Hashing len d s) : ErrorCodeOk s := by
  rw [ErrorCodeOk, h.noError]; decide

theorem Hashing.withEvents (h : Hashing len d s) (es : List Event) : Hashing len d (s.withEvents es) :=
  ⟨h.inv, h.progress, h.noError⟩

theorem Hashing.returnToHost (h : Hashing len d s) (v : Word) : Hashing len d (returnToHost v s) :=
  ⟨h.inv, h.progress, h.noError⟩

theorem CoreEffect.hashing (hc : CoreEffect s t) (h : Hashing len d s) : Hashing len d t :=
  let ⟨herr, _⟩ := hc.frame
  ⟨hc.machineInv h.inv, hc.hashProgress h.inv h.progress, herr.trans h.noError⟩

/-- In FILL the next byte completes a block when the padded message then has whole blocks (R69, R73). -/
theorem Hashing.fill_succ_eq_iff (h : Hashing len d s) (hp : s.phase = .fill) :
    s.fill + 1#7 = 64#7 ↔ (padLen len + (d.length + 1)) % 64 = 0 := by
  obtain ⟨-, hg, -⟩ := h
  simp only [HashProgress, hp, paddedSoFar_length] at hg
  obtain ⟨-, hfill, -⟩ := hg
  rw [← BitVec.toNat_inj]
  simp only [BitVec.toNat_add, BitVec.toNat_ofNat]
  omega

/-- In LOAD no byte is left to come when the whole message has been accepted (R26). -/
theorem Hashing.rem_eq_zero_iff (h : Hashing len d s) (hp : s.phase = .load) : s.rem = 0#64 ↔ d.length = len := by
  obtain ⟨-, hg, -⟩ := h
  simp only [HashProgress, hp] at hg
  obtain ⟨hlen, -⟩ := hg
  rw [← BitVec.toNat_inj]
  simp only [BitVec.toNat_ofNat]
  omega

theorem Hashing.running_of_done (h : Hashing len d s) (hp : s.phase = .done) :
    runningOf s = tiger Config.sboxRom d := by
  obtain ⟨-, hg, -⟩ := h
  simp only [HashProgress, hp] at hg
  obtain ⟨-, hrun⟩ := hg
  exact hrun

/-- `WR MSGLEN, v` and `START` begin the hash (R103, R107). -/
theorem exists_hashing_of_start {v : Word} (hs : MachineInv s) (hp : s.phase = .idle ∨ s.phase = .done)
    (h0 : s.errcode = 0#4) (hev : s.events = wr .msglen v :: cmdStart :: es) :
    ∃ t, Reaches s t ∧ t.events = es ∧ Hashing v.toNat [] t ∧ t.phase = if v = 0#64 then .done else .fill := by
  have ⟨_, _, he, _⟩ := hs
  have hb : busy s = false := (not_busy_iff s).2 hp
  have hlen := step_wrMsglen he hb hev
  set u := (s.withEvents (cmdStart :: es)).withMsglen v
  have hstart : step u = .next (startHash (u.withEvents es)) := step_cmdStart he hb rfl
  obtain ⟨-, -, -, -, -, -, -, herr, hev', -⟩ := startHash_frame (u.withEvents es)
  refine ⟨_, (Reaches.of_step hlen).trans (.of_step hstart), hev',
    ⟨machineInv_startHash he, hashProgress_startHash _ (u.withEvents es), herr.trans h0⟩, ?_⟩
  rcases startHash_cases (u.withEvents es) with ⟨hv, hp, -⟩ | ⟨hv, hp, -⟩
  · exact hp.trans (if_pos hv).symm
  · exact hp.trans (if_neg hv).symm

/-- `WR DIN, b` in FILL (R73). -/
theorem Hashing.exists_accept (h : Hashing len d s) (hp : s.phase = .fill)
    (hev : s.events = wr .din (b.setWidth 64) :: es) :
    ∃ t, Reaches s t ∧ t.events = es ∧ Hashing len (d ++ [b]) t ∧ t.phase = phaseAfterBytes len (d.length + 1) := by
  have hs := h.withEvents es
  let j : Fin 64 := ⟨s.fill.toNat, h.inv.fill_lt hp⟩
  have hstep : step s = .next (acceptByte j b (s.withEvents es)) := by
    rw [step_wr h.errorCodeOk hev rfl, regOffset, decodeWrite_din, byteOfDin_setWidth]
    exact (HostEffect.accept (s := s.withEvents es) b j rfl hp).exec_eq
  obtain ⟨-, -, -, hphase⟩ := acceptByte_spec j b (s.withEvents es)
  obtain ⟨-, -, -, -, -, -, herr, hev', -⟩ := acceptByte_frame j b (s.withEvents es)
  refine ⟨_, .of_step hstep, hev', ⟨machineInv_acceptByte hs.inv hp j b,
    hashProgress_acceptByte hs.inv hp hs.progress rfl b, herr.trans h.noError⟩, ?_⟩
  simp only [hphase, hs.fill_succ_eq_iff hp, State.withEvents_phase, hp, phaseAfterBytes, Nat.succ_pos, true_and]

/-- A `POLL STATUS` that CORE's 29 steps fall before: the block in LOAD is processed (R97). -/
theorem Hashing.exists_poll (h : Hashing len d s) (hp : s.phase = .load) (hev : s.events = pollStatus 29 ++ es) :
    ∃ t, Reaches s t ∧ t.events = es ∧ Hashing len d t ∧ t.phase = if d.length = len then .done else .fill := by
  obtain ⟨t, hrun, hdone⟩ := exists_blockDone (s := s.withEvents []) h.errorCodeOk hp rfl
  obtain ⟨ht, hcore⟩ := core_run CoreEffect.hashing rfl hrun (h.withEvents [])
  have hblock : runSteps 29 s = .next (t.withEvents (rd .status :: es)) := by
    rw [← hcore, ← State.withEvents_self hev, pollStatus, List.append_assoc]; rfl
  have hread := step_rdStatus (s := t.withEvents (rd .status :: es)) ht.errorCodeOk rfl
  have hphase := hdone.phase
  simp only [(h.withEvents []).rem_eq_zero_iff hp] at hphase
  exact ⟨_, Reaches.trans ⟨29, hblock⟩ (.of_step hread), rfl, (ht.withEvents es).returnToHost _, hphase⟩

/-- `WAITDATA`, where a block was completed and a byte is still to come (R68). -/
theorem Hashing.exists_waitData (h : Hashing len d s) (hp : s.phase = phaseAfterBytes len d.length)
    (hmore : d.length ≠ len)
    (hev : s.events = (if 0 < d.length ∧ (padLen len + d.length) % 64 = 0 then pollStatus 29 else []) ++ es) :
    ∃ t, Reaches s t ∧ t.events = es ∧ Hashing len d t ∧ t.phase = .fill := by
  by_cases hfull : 0 < d.length ∧ (padLen len + d.length) % 64 = 0
  · rw [phaseAfterBytes, if_pos hfull] at hp
    rw [if_pos hfull] at hev
    simpa only [if_neg hmore] using h.exists_poll hp hev
  · rw [phaseAfterBytes, if_neg hfull] at hp
    rw [if_neg hfull] at hev
    exact ⟨s, .refl s, hev, h, hp⟩

/-- The bytes `bs` of the message, after the bytes `d`, each with the wait before it (R68, R95). -/
theorem Hashing.exists_bytes {bs : List Byte} (h : Hashing len d s) (hlen : d.length + bs.length = len)
    (hp : s.phase = phaseAfterBytes len d.length) (hev : s.events = hashBytes (padLen len) d.length bs ++ es) :
    ∃ t, Reaches s t ∧ t.events = es ∧ Hashing len (d ++ bs) t ∧ t.phase = phaseAfterBytes len len := by
  induction bs generalizing d s with
  | nil => exact ⟨s, .refl s, hev, by rwa [List.append_nil], hlen ▸ hp⟩
  | cons b bs ih =>
    rw [List.length_cons] at hlen
    rw [hashBytes, List.append_assoc] at hev
    obtain ⟨u, hsu, hevu, hu, hpu⟩ := h.exists_waitData hp (by omega) hev
    obtain ⟨v, huv, hevv, hv, hpv⟩ := hu.exists_accept hpu hevu
    have hd : (d ++ [b]).length = d.length + 1 := List.length_append
    rw [← hd] at hevv hpv
    obtain ⟨t, hvt, hevt, ht, hpt⟩ := ih hv (by omega) hpv hevv
    exact ⟨t, (hsu.trans huv).trans hvt, hevt, by rwa [List.append_cons], hpt⟩

/-- The whole message and `WAITDONE`; an empty message is done at once (R68, R70). -/
theorem Hashing.exists_done {m : List Byte} (h : Hashing m.length [] s)
    (hp : s.phase = if m = [] then .done else .fill)
    (hev : s.events = hashBytes (padLen m.length) 0 m ++ (pollStatus (if m = [] then 0 else 29) ++ es)) :
    ∃ t, Reaches s t ∧ t.events = es ∧ Hashing m.length m t ∧ t.phase = .done := by
  by_cases hm : m = []
  · subst hm
    exact ⟨_, .of_step (step_rdStatus h.errorCodeOk hev), rfl, (h.withEvents es).returnToHost _, hp⟩
  · rw [if_neg hm] at hp hev
    obtain ⟨u, hsu, hevu, hu, hpu⟩ := h.exists_bytes (Nat.zero_add _) hp hev
    have hwhole : 0 < m.length ∧ (padLen m.length + m.length) % 64 = 0 :=
      ⟨List.length_pos_iff.2 hm, by rw [padLen]; omega⟩
    rw [phaseAfterBytes, if_pos hwhole] at hpu
    obtain ⟨t, hut, hevt, ht, hpt⟩ := hu.exists_poll hpu hevu
    exact ⟨t, hsu.trans hut, hevt, ht, hpt.trans (if_pos rfl)⟩

/-- A digest read in DONE returns its word of the digest of the message (R98, R99). -/
theorem Hashing.exists_rdDigest {r : HostReg} {f : Triple → Word} (h : Hashing len d s) (hp : s.phase = .done)
    (hev : s.events = rd r :: es) (hr : (regOffset r).toNat % 8 = 0)
    (hf : digestOf (decodeRead (regOffset r)) = some f) :
    ∃ t, Reaches s t ∧ t.events = es ∧ Hashing len d t ∧ t.phase = .done ∧
      t.returned = f (tiger Config.sboxRom d) :: s.returned := by
  have hstep := step_rdDigest h.errorCodeOk hp hev hr hf
  rw [h.running_of_done hp] at hstep
  exact ⟨_, .of_step hstep, rfl, (h.withEvents es).returnToHost _, hp, rfl⟩

end

/-- Settles O57: the hash begins, takes the message and is done, and the three reads return the digest. -/
theorem hashOfEveryMessageIsTiger : Obligations.HashOfEveryMessageIsTiger := by
  intro s m hs hp h0 hm hev
  have hlen : (BitVec.ofNat 64 m.length).toNat = m.length := Nat.mod_eq_of_lt hm
  have hnil : BitVec.ofNat 64 m.length = 0#64 ↔ m = [] := by
    rw [← BitVec.toNat_inj, hlen]
    exact List.length_eq_zero_iff
  simp only [hashEvents, List.append_assoc] at hev
  obtain ⟨u, hsu, hevu, hu, hpu⟩ := exists_hashing_of_start hs hp h0 hev
  simp only [hlen, hnil] at hu hpu
  obtain ⟨v, huv, hevv, hv, hpv⟩ := hu.exists_done hpu hevu
  obtain ⟨a, hva, heva, ha, hpa, hreta⟩ := hv.exists_rdDigest hpv hevv rfl rfl
  obtain ⟨b, hab, hevb, hb, hpb, hretb⟩ := ha.exists_rdDigest hpa heva rfl rfl
  obtain ⟨t, hbt, hevt, ht, hpt, hrett⟩ := hb.exists_rdDigest hpb hevb rfl rfl
  obtain ⟨n, hn⟩ := (((hsu.trans huv).trans hva).trans hab).trans hbt
  exact ⟨n, t, v.returned, hn, hevt, ht.noError, hpt, by rw [hrett, hretb, hreta]⟩

end Sys2Proof.Machine

namespace Sys2Proof.Machine

/-! # The rows of the host interface

A request decodes by `decodeHost_write` and `decodeHost_read`, and what its transaction does is an effect of `HostEffect`: an error
raised, a value answered, a hash begun (R102 to R115). Here these effects are written out as whole next states, so that
what a row changes and all that it leaves are one equation. -/

/-! ## The effects as equations on the whole state -/

/-- A transaction that raises an error records it unless one is recorded, and does nothing else (R118). -/
theorem exec_of_raisedBy_eq {s : State} {i : Instr} {k : ErrCode} (h : raisedBy s i = some k) :
    exec i s = .next { s with errcode := if s.errcode = 0#4 then errorCode k else s.errcode } := by
  rw [exec_of_raisedBy h, raiseError_eq]

/-- An accepted `START` of the empty message (R70, R103). -/
theorem startHash_of_empty {s : State} (h : s.msglen = 0#64) :
    startHash s = { s with
      a := iv.a, b := iv.b, c := iv.c, rem := s.msglen, pass := 0#2, round := 0#3, fill := 0#7, phase := .done } :=
  if_pos h

/-- An accepted `START` of any other message (R69, R103). -/
theorem startHash_of_nonempty {s : State} (h : s.msglen ≠ 0#64) :
    startHash s = { s with
      a := iv.a, b := iv.b, c := iv.c, rem := s.msglen, pass := 0#2, round := 0#3,
      blk := zeroPrefix (padLen s.msglen.toNat) s.blk, fill := BitVec.ofNat 7 (padLen s.msglen.toNat),
      phase := .fill } :=
  if_neg h

/-- `START` is accepted in IDLE and in DONE (R23, R103). -/
theorem exec_wrCtrlStart_of_not_busy {s : State} (h : s.phase = .idle ∨ s.phase = .done) :
    exec .wrCtrlStart s = .next (startHash s) :=
  (HostEffect.start ((not_busy_iff s).2 h)).exec_eq

/-- A digest read in DONE answers its word (R34, R99). -/
theorem exec_of_digestOf_of_done {s : State} {i : Instr} {f : Triple → Word} (hf : digestOf i = some f)
    (hp : s.phase = .done) : exec i s = .next (returnToHost (f (runningOf s)) s) := by
  rw [exec_of_digestOf hf, returnDigestWord, if_pos hp]

/-- A digest read elsewhere answers a draw, whichever word it names (R34, U5). -/
theorem exec_of_digestOf_of_not_done {s : State} {i : Instr} {f : Triple → Word} (hf : digestOf i = some f)
    (hp : s.phase ≠ .done) : exec i s = .next (returnDraw s) := by
  rw [exec_of_digestOf hf, returnDigestWord, if_neg hp]

/-! ## Commands (R102 to R106) -/

/-- A write to CTRL is the row of its command, whatever `DATA[63:4]` holds (R56, R62). -/
theorem decodeHost_ctrl {d : Word} {cmd : BitVec 4} (h : cmdOf d = cmd) :
    decodeHost (request true 0x00#8 d) = .ok (decodeCommand cmd) := by
  rw [decodeHost_write rfl, decodeWrite_ctrl, h]

/-- Settles O1: command 0, whose meaning answers its own state. -/
theorem nopChangesNothing : Obligations.NopChangesNothing :=
  ⟨fun _ => decodeHost_ctrl, fun _ => HostEffect.nop.exec_eq⟩

/-- Settles O2: `START_BUSY` is raised while busy; else the hash begins, by whether the message is empty. -/
theorem startBeginsHash : Obligations.StartBeginsHash := by
  refine ⟨fun _ => decodeHost_ctrl, fun s hidle hdone => ?_, fun s hp h0 => ?_, fun s hp h0 => ?_⟩
  · have hb : busy s = true := (busy_iff s).2 ⟨hidle, hdone⟩
    exact exec_of_raisedBy_eq (k := .startBusy) (if_pos hb)
  · rw [exec_wrCtrlStart_of_not_busy hp, startHash_of_empty h0]; rfl
  · rw [exec_wrCtrlStart_of_not_busy hp, startHash_of_nonempty h0]; rfl

/-- Settles O3: command 2, whose writes do not look at the phase. -/
theorem abortReturnsToIdle : Obligations.AbortReturnsToIdle :=
  ⟨fun _ => decodeHost_ctrl, fun _ => HostEffect.abort.exec_eq⟩

/-- Settles O4: command 3, whose one write is `ERRCODE`. -/
theorem clrerrClearsError : Obligations.ClrerrClearsError :=
  ⟨fun _ => decodeHost_ctrl, fun _ => HostEffect.clrerr.exec_eq⟩

/-- Settles O5: both reserved rows raise `BAD_CMD`. -/
theorem reservedCommandRaisesBadCmd : Obligations.ReservedCommandRaisesBadCmd := by
  refine ⟨fun d hlo hhi => ?_, fun d hhi => ?_, fun s cmd => ⟨?_, ?_⟩⟩
  · rw [decodeHost_ctrl rfl, decodeCommand_reserved hlo, if_pos hhi]
  · rw [decodeHost_ctrl rfl, decodeCommand_reserved (by omega), if_neg (by omega)]
  · exact exec_of_raisedBy_eq (k := .badCmd) rfl
  · exact exec_of_raisedBy_eq (k := .badCmd) rfl

/-! ## The other writes (R107, R108) -/

/-- Settles O6: the length is set unless the core is busy, and then `MSGLEN_BUSY` is raised. -/
theorem msglenWriteSetsLength : Obligations.MsglenWriteSetsLength := by
  refine ⟨fun d => decodeHost_write rfl d, fun s d hp => ?_, fun s d hidle hdone => ?_⟩
  · exact (HostEffect.setLength d ((not_busy_iff s).2 hp)).exec_eq
  · have hb : busy s = true := (busy_iff s).2 ⟨hidle, hdone⟩
    exact exec_of_raisedBy_eq (k := .msglenBusy) (if_pos hb)

/-- Settles O7: the registers' offsets are numerals, the reserved ones are by range, and every row raises `BAD_WRITE`. -/
theorem readOnlyWriteRaisesBadWrite : Obligations.ReadOnlyWriteRaisesBadWrite := by
  refine ⟨fun d => ?_, fun off d h8 hlo hhi => ?_, fun off d h8 hhi => ?_, fun s off i hi => ?_⟩
  · refine ⟨?_, ?_, ?_, ?_, ?_⟩ <;> exact decodeHost_write rfl d
  · rw [decodeHost_write h8, decodeWrite_reserved hlo, if_pos hhi]
  · rw [decodeHost_write h8, decodeWrite_reserved (by omega), if_neg (by omega)]
  · have hk : raisedBy s i = some .badWrite := by
      simp only [List.mem_cons, List.not_mem_nil, or_false] at hi
      rcases hi with rfl | rfl | rfl | rfl | rfl | rfl | rfl <;> rfl
    exact exec_of_raisedBy_eq hk

/-! ## The status word (R30, R109) -/

/-- The fields of the status word are what it was composed of: those below a field are taken off one by one. -/
theorem statusWord_fields (s : State) :
    (statusWord s).extractLsb' 16 7 = s.fill ∧ (statusWord s).extractLsb' 13 3 = s.round ∧
      (statusWord s).extractLsb' 11 2 = s.pass ∧ (statusWord s).extractLsb' 8 3 = phaseCode s.phase ∧
      (statusWord s).extractLsb' 4 4 = s.errcode ∧ (statusWord s).extractLsb' 3 1 = BitVec.ofBool (errFlag s) ∧
      (statusWord s).extractLsb' 2 1 = BitVec.ofBool (needData s) ∧
      (statusWord s).extractLsb' 1 1 = BitVec.ofBool (doneFlag s) ∧
      (statusWord s).extractLsb' 0 1 = BitVec.ofBool (busy s) := by
  refine ⟨?_, ?_, ?_, ?_, ?_, ?_, ?_, ?_, ?_⟩
  all_goals
    rw [statusWord, BitVec.extractLsb'_setWidth_of_le (by decide)]
    repeat refine (BitVec.extractLsb'_append_eq_of_le (by decide)).trans ?_
  · exact BitVec.extractLsb'_eq_self
  all_goals exact BitVec.extractLsb'_append_eq_right

/-- Above `FILL` the status word is 0. -/
theorem statusWord_high (s : State) : (statusWord s).extractLsb' 23 41 = 0#41 := by
  rw [statusWord, BitVec.setWidth_eq_append (by decide)]
  exact BitVec.extractLsb'_append_eq_left

/-- A field of one bit is that bit. -/
theorem getLsbD_of_extractLsb'_eq_ofBool {w i : Nat} {v : BitVec w} {b : Bool}
    (h : v.extractLsb' i 1 = BitVec.ofBool b) : v.getLsbD i = b := by
  have h0 := congrArg (BitVec.getLsbD · 0) h
  simpa using h0

/-- Every flag and field is 0 in the reset state (R38). -/
theorem statusWord_reset : statusWord State.reset = 0#64 := by decide

/-- Settles O10: the word answered is the status word, whose one-bit fields are the flags of R23 and R27. -/
theorem statusReadComposesFields : Obligations.StatusReadComposesFields := by
  refine ⟨fun d => decodeHost_read rfl d, ?_, fun s => ⟨statusWord s, exec_of_answerOf rfl s, ?_⟩⟩
  · rw [exec_of_answerOf rfl, statusWord_reset]; rfl
  · obtain ⟨hfill, hround, hpass, hphase, hcode, herr, hneed, hdone, hbusy⟩ := statusWord_fields s
    rw [getLsbD_of_extractLsb'_eq_ofBool herr, getLsbD_of_extractLsb'_eq_ofBool hneed,
      getLsbD_of_extractLsb'_eq_ofBool hdone, getLsbD_of_extractLsb'_eq_ofBool hbusy]
    exact ⟨busy_iff s, beq_iff_eq, beq_iff_eq, bne_iff_ne, hcode, hphase, hpass, hround, hfill, statusWord_high s⟩

/-! ## The other reads (R110 to R115) -/

/-- Settles O11: the two registers are answered whatever the phase. -/
theorem lengthReadsReturnRegisters : Obligations.LengthReadsReturnRegisters :=
  ⟨fun d => ⟨decodeHost_read rfl d, decodeHost_read rfl d⟩,
    fun s => ⟨exec_of_answerOf (f := State.msglen) rfl s, exec_of_answerOf (f := State.rem) rfl s⟩⟩

/-- Settles O12: a digest read is an answer in DONE and a draw elsewhere. -/
theorem digestReadsReturnDigestOrDraw : Obligations.DigestReadsReturnDigestOrDraw := by
  refine ⟨fun d => ?_, fun s hp => ?_, fun s i hp hi => ?_⟩
  · refine ⟨?_, ?_, ?_⟩ <;> exact decodeHost_read rfl d
  · exact ⟨exec_of_digestOf_of_done (f := Triple.a) rfl hp, exec_of_digestOf_of_done (f := Triple.b) rfl hp,
      exec_of_digestOf_of_done (f := Triple.c) rfl hp⟩
  · obtain ⟨f, hf⟩ : ∃ f, digestOf i = some f := by
      simp only [List.mem_cons, List.not_mem_nil, or_false] at hi
      rcases hi with rfl | rfl | rfl <;> exact ⟨_, rfl⟩
    exact exec_of_digestOf_of_not_done hf hp

/-- Settles O13: the registers' offsets are numerals, the reserved ones are by range, and every row answers 0. -/
theorem writeOnlyAndReservedReadZero : Obligations.WriteOnlyAndReservedReadZero := by
  refine ⟨fun d => ⟨decodeHost_read rfl d, decodeHost_read rfl d⟩, fun off d h8 hlo hhi => ?_, fun off d h8 hhi => ?_,
    fun s off i hi => ?_⟩
  · rw [decodeHost_read h8, decodeRead_reserved hlo, if_pos hhi]
  · rw [decodeHost_read h8, decodeRead_reserved (by omega), if_neg (by omega)]
  · have hf : answerOf i = some fun _ => 0#64 := by
      simp only [List.mem_cons, List.not_mem_nil, or_false] at hi
      rcases hi with rfl | rfl | rfl | rfl <;> rfl
    exact exec_of_answerOf hf s

end Sys2Proof.Machine

namespace Sys2Proof.Machine

/-! # Errors (60_exceptions.md)

`ERRCODE` has three writers: a transaction that raises an error, `CLRERR` and a reset (R117, R118, R123).
`errcode_cases_of_exec` says so of every instruction; which transaction raises which code, and that a recorded error
stays, are read off it. -/

/-! ## Raising an error (R118) -/

/-- Settles O35: the two branches of `raiseError`, and the one-bit field of the status word that is `STATUS.ERR`. -/
theorem raiseErrorKeepsFirst : Obligations.RaiseErrorKeepsFirst := by
  refine fun k s => ⟨fun h => if_pos h, fun h => if_neg h, ?_⟩
  obtain ⟨-, -, -, -, -, herr, -⟩ := statusWord_fields s
  rw [getLsbD_of_extractLsb'_eq_ofBool herr]
  exact bne_iff_ne

/-! ## Who writes `ERRCODE` (R116, R117, R123) -/

/-- No micro-op writes it, whatever its operands (R116). -/
theorem errcode_of_exec_microOp {s t : State} {i : Instr} (hi : isHostTransaction i = false) (h : exec i s = .next t) :
    t.errcode = s.errcode := by
  cases i
  case roundP0 k | roundP1 k | roundP2 k =>
    cases h
    obtain ⟨-, -, -, -, -, -, -, herr, -⟩ := runRound_frame _ k s
    exact herr
  case roundRsvd => cases h
  case waitIdle | waitFill | waitDone | load | save | ksched | ffwd => cases h; rfl
  all_goals cases hi

/-- A host transaction raises its error, or is `CLRERR`, or leaves the record as it is. -/
theorem HostEffect.errcode_cases {s t : State} {i : Instr} (h : HostEffect s i t) :
    (∃ k, raisedBy s i = some k ∧ t = raiseError k s) ∨ i = .wrCtrlClrerr ∨ t.errcode = s.errcode := by
  cases h with
  | raise k hk => exact .inl ⟨k, hk, rfl⟩
  | clrerr => exact .inr (.inl rfl)
  | nop | abort | setLength | answer => exact .inr (.inr rfl)
  | start =>
    obtain ⟨-, -, -, -, -, -, -, herr, -⟩ := startHash_frame s
    exact .inr (.inr herr)
  | accept b j =>
    obtain ⟨-, -, -, -, -, -, herr, -⟩ := acceptByte_frame j b s
    exact .inr (.inr herr)
  | digest f =>
    rcases returnDigestWord_eq (f (runningOf s)) s with ⟨-, e⟩ | ⟨-, e⟩ <;> rw [e] <;> exact .inr (.inr rfl)

/-- The writers of `ERRCODE` among all instructions. -/
theorem errcode_cases_of_exec {s t : State} {i : Instr} (h : exec i s = .next t) :
    (∃ k, raisedBy s i = some k ∧ t = raiseError k s) ∨ i = .wrCtrlClrerr ∨ t.errcode = s.errcode := by
  cases hi : isHostTransaction i
  · exact .inr (.inr (errcode_of_exec_microOp hi h))
  · exact (hostEffect_of_exec hi h).errcode_cases

/-- Settles O23: each of the seven answers a next state, and as a micro-op it leaves `ERRCODE`. -/
theorem datapathNeverRaisesError : Obligations.DatapathNeverRaisesError := by
  intro s i instr h
  obtain ⟨⟨t, ht⟩, hmicro⟩ : (∃ t, exec instr s = .next t) ∧ isHostTransaction instr = false := by
    simp only [List.mem_cons, List.not_mem_nil, or_false] at h
    rcases h with rfl | rfl | rfl | rfl | rfl | rfl | rfl <;> exact ⟨⟨_, rfl⟩, rfl⟩
  exact ⟨t, ht, errcode_of_exec_microOp hmicro ht⟩

/-- Settles O36: the table's causes are `raisedBy`, so an instruction with none is `CLRERR` or keeps the record. -/
theorem errorCodesByCause : Obligations.ErrorCodesByCause := by
  intro i s cause
  have hcause : cause = (raisedBy s i).map errorCode := by
    cases i
    case wrCtrlStart | wrMsglen => by_cases hb : busy s = true <;> simp [cause, raisedBy, ← busy_iff, hb, errorCode]
    case wrDin => by_cases hp : s.phase = .fill <;> simp [cause, raisedBy, hp, errorCode]
    all_goals rfl
  rw [hcause]
  refine ⟨fun k hk => ?_, fun hnone hclr t h => ?_⟩
  · obtain ⟨c, hc, rfl⟩ := Option.map_eq_some_iff.1 hk
    exact exec_of_raisedBy_eq hc
  · rcases errcode_cases_of_exec h with ⟨c, hc, -⟩ | hi | he
    · simp [hc] at hnone
    · exact absurd hi hclr
    · exact he

/-- Settles O37: of the three writers, an error raised later finds one recorded, and the other two are excluded. -/
theorem recordedErrorIsSticky : Obligations.RecordedErrorIsSticky := by
  intro s t h hne hclr hreset
  rcases step_exec h with ⟨es, hev, -⟩ | ⟨es, i, -, hi, hx, -⟩
  · exact absurd hev (hreset es)
  · rcases errcode_cases_of_exec hx with ⟨k, -, rfl⟩ | rfl | he
    · exact (raiseError_errcode k _).trans (if_neg hne)
    · exact absurd hi hclr
    · exact he

/-! ## The states that fault (R119, U12) -/

/-- Settles O9: the transaction is in phase FILL, and `BLK` has no byte `FILL`. -/
theorem dinFaultsBeyondBlock : Obligations.DinFaultsBeyondBlock := fun _ _ hp hfill =>
  (if_pos hp).trans (dif_neg (Nat.not_lt.2 hfill))

theorem guardErrorCode_of_reserved {s : State} (h : 6 ≤ s.errcode.toNat) (f : Fetched) :
    guardErrorCode s f = .faulted .reservedErrorCode :=
  if_pos (decide_eq_true h)

/-- Settles O28: every event but a reset is fetched behind the guard. -/
theorem reservedErrorCodeFaults : Obligations.ReservedErrorCodeFaults := by
  intro s h hreset
  match hev : s.events with
  | [] | .core :: es | .host acc :: es => simp only [step, fetch, hev, guardErrorCode_of_reserved h]
  | .reset :: es => exact absurd hev (hreset es)

end Sys2Proof.Machine

namespace Sys2Proof.Machine

/-! # Reset (70_reset_and_hazards.md) -/

/-- Settles O29: a reset event is settled by `resetCore`, whose control registers are those of `State.reset` (R131). -/
theorem resetClearsControlState : Obligations.ResetClearsControlState := by
  have hreset : State.reset.phase = .idle ∧ State.reset.pass = 0#2 ∧ State.reset.round = 0#3 ∧ State.reset.fill = 0#7 ∧
      State.reset.rem = 0#64 ∧ State.reset.msglen = 0#64 ∧ State.reset.errcode = 0#4 :=
    ⟨rfl, rfl, rfl, rfl, rfl, rfl, rfl⟩
  exact ⟨hreset, fun s es hev => ⟨resetCore (s.withEvents es), step_reset hev, hreset⟩⟩

end Sys2Proof.Machine
